-- ==== Sys2Proof/Word.lean ====
section
/-! DEFINITION. The word types of the unit (spec/00_scope.md R7, R10): bytes, 16-bit words, the operand
fields of an instruction word, register numbers, and the size of memory. -/

namespace Sys2Proof

/-- An 8-bit value: a general register, a timer, a byte of memory (R7, R21, R26, R60). -/
abbrev Byte := BitVec 8

/-- A 16-bit value: an instruction word, `pc`, `I`, a stack entry (R7, R23, R24, R25). -/
abbrev Word := BitVec 16

/-- A 4-bit field of an instruction word, and a key code (R12 "Nibble", R40). -/
abbrev Nibble := BitVec 4

/-- The 12-bit immediate `NNN` (R91, R92). -/
abbrev Imm12 := BitVec 12

/-- A register number 0..15: "no register number can be out of range" (R21). -/
abbrev Reg := Fin 16

/-- `VF`, "another name for `V[15]`" (R11, R22). -/
abbrev VF : Reg := 15

/-- `MEM_SIZE`: "4096 addressable bytes, 0x000–0xFFF", a constant and no parameter (R7). -/
abbrev memSize : Nat := 4096

end Sys2Proof
end

