-- ==== Sys2Proof/Syntax.lean ====
section
/-! DEFINITION. The 34 instructions (spec/30_encoding.md R100, spec/opcode_table.json), one constructor a
row. The pattern name "is the instruction's identity" (R104); a constructor is that name after `op`. Each
operand has the width of its field (R91), so an instruction that cannot be encoded cannot be written. -/

namespace Sys2Proof

/-- An instruction with its decoded operands, in the table's order. -/
inductive Instr where
  /-- `CLS`: clear the display (R181). -/
  | op00E0
  /-- `RET`: return from a subroutine (R121). -/
  | op00EE
  /-- `JP nnn` (R122). -/
  | op1NNN (nnn : Imm12)
  /-- `CALL nnn` (R123). -/
  | op2NNN (nnn : Imm12)
  /-- `SE Vx, nn` (R125). -/
  | op3XNN (x : Reg) (nn : Byte)
  /-- `SNE Vx, nn` (R126). -/
  | op4XNN (x : Reg) (nn : Byte)
  /-- `SE Vx, Vy` (R127); the field N is ignored and no operand (R94). -/
  | op5XY0 (x y : Reg)
  /-- `LD Vx, nn` (R140). -/
  | op6XNN (x : Reg) (nn : Byte)
  /-- `ADD Vx, nn` (R141). -/
  | op7XNN (x : Reg) (nn : Byte)
  /-- `LD Vx, Vy` (R161). -/
  | op8XY0 (x y : Reg)
  /-- `OR Vx, Vy` (R162). -/
  | op8XY1 (x y : Reg)
  /-- `AND Vx, Vy` (R163). -/
  | op8XY2 (x y : Reg)
  /-- `XOR Vx, Vy` (R164). -/
  | op8XY3 (x y : Reg)
  /-- `ADD Vx, Vy` (R165). -/
  | op8XY4 (x y : Reg)
  /-- `SUB Vx, Vy` (R166). -/
  | op8XY5 (x y : Reg)
  /-- `SHR Vx` (R167); Y is used when `SHIFT_USES_VY` is true. -/
  | op8XY6 (x y : Reg)
  /-- `SUBN Vx, Vy` (R168). -/
  | op8XY7 (x y : Reg)
  /-- `SHL Vx` (R169); Y is used when `SHIFT_USES_VY` is true. -/
  | op8XYE (x y : Reg)
  /-- `SNE Vx, Vy` (R128); the field N is ignored and no operand (R94). -/
  | op9XY0 (x y : Reg)
  /-- `LD I, nnn` (R142). -/
  | opANNN (nnn : Imm12)
  /-- `JP V0, nnn` (R124). -/
  | opBNNN (nnn : Imm12)
  /-- `RND Vx, nn` (R143). -/
  | opCXNN (x : Reg) (nn : Byte)
  /-- `DRW Vx, Vy, n` (R182). -/
  | opDXYN (x y : Reg) (n : Nibble)
  /-- `SKP Vx` (R201). -/
  | opEX9E (x : Reg)
  /-- `SKNP Vx` (R202). -/
  | opEXA1 (x : Reg)
  /-- `LD Vx, DT` (R220). -/
  | opFX07 (x : Reg)
  /-- `LD Vx, K` (R203). -/
  | opFX0A (x : Reg)
  /-- `LD DT, Vx` (R221). -/
  | opFX15 (x : Reg)
  /-- `LD ST, Vx` (R222). -/
  | opFX18 (x : Reg)
  /-- `ADD I, Vx` (R144). -/
  | opFX1E (x : Reg)
  /-- `LD F, Vx` (R145). -/
  | opFX29 (x : Reg)
  /-- `LD B, Vx` (R223). -/
  | opFX33 (x : Reg)
  /-- `LD [I], Vx` (R224). -/
  | opFX55 (x : Reg)
  /-- `LD Vx, [I]` (R225). -/
  | opFX65 (x : Reg)
  deriving DecidableEq, Repr

end Sys2Proof
end

