-- ==== Sys2Proof/Decode.lean ====
section
/-! DEFINITION. Decoding (spec/30_encoding.md R91 to R101), total on every word and every byte list,
rejecting by name; after it the encoder (R90, R100) and the opcode map of R100 as data. -/

namespace Sys2Proof

/-- Why bytes are not an instruction. -/
inductive DecodeReject where
  /-- The word selects none of the 34 instructions (R101); the unit raises `UnknownInstruction`. -/
  | unknownInstruction (w : Word)
  /-- Fewer than the two bytes of an instruction word are given (R90, R91); never at a fetch, which reads
  two bytes or raises `MemoryOutOfBounds` (R93). -/
  | tooFewBytes
  deriving DecidableEq, Repr

/-! ### The five fields (R91) -/

/-- `class = w[15:12]`. -/
def fieldClass (w : Word) : Nibble := w.extractLsb' 12 4

/-- `X = w[11:8]`, a register number. -/
def fieldX (w : Word) : Reg := ⟨(w.extractLsb' 8 4).toNat, (w.extractLsb' 8 4).isLt⟩

/-- `Y = w[7:4]`, a register number. -/
def fieldY (w : Word) : Reg := ⟨(w.extractLsb' 4 4).toNat, (w.extractLsb' 4 4).isLt⟩

/-- `N = w[3:0]`. -/
def fieldN (w : Word) : Nibble := w.extractLsb' 0 4

/-- `NN = w[7:0]`. -/
def fieldNN (w : Word) : Byte := w.extractLsb' 0 8

/-- `NNN = w[11:0]`. -/
def fieldNNN (w : Word) : Imm12 := w.extractLsb' 0 12

/-! ### Dispatch in two levels (R94) -/

/-- Class 0x0, dispatched on the whole word (R95; spec/90_conflicts.md C2). -/
def decodeClass0 (w : Word) : Except DecodeReject Instr :=
  match w with
  | 0x00E0#16 => .ok .op00E0
  | 0x00EE#16 => .ok .op00EE
  | _ => .error (.unknownInstruction w)

/-- Class 0x8, dispatched on N (R96). -/
def decodeClass8 (w : Word) : Except DecodeReject Instr :=
  match fieldN w with
  | 0x0#4 => .ok (.op8XY0 (fieldX w) (fieldY w))
  | 0x1#4 => .ok (.op8XY1 (fieldX w) (fieldY w))
  | 0x2#4 => .ok (.op8XY2 (fieldX w) (fieldY w))
  | 0x3#4 => .ok (.op8XY3 (fieldX w) (fieldY w))
  | 0x4#4 => .ok (.op8XY4 (fieldX w) (fieldY w))
  | 0x5#4 => .ok (.op8XY5 (fieldX w) (fieldY w))
  | 0x6#4 => .ok (.op8XY6 (fieldX w) (fieldY w))
  | 0x7#4 => .ok (.op8XY7 (fieldX w) (fieldY w))
  | 0xE#4 => .ok (.op8XYE (fieldX w) (fieldY w))
  | _ => .error (.unknownInstruction w)

/-- Class 0xE, dispatched on NN (R97). -/
def decodeClassE (w : Word) : Except DecodeReject Instr :=
  match fieldNN w with
  | 0x9E#8 => .ok (.opEX9E (fieldX w))
  | 0xA1#8 => .ok (.opEXA1 (fieldX w))
  | _ => .error (.unknownInstruction w)

/-- Class 0xF, dispatched on NN (R98). -/
def decodeClassF (w : Word) : Except DecodeReject Instr :=
  match fieldNN w with
  | 0x07#8 => .ok (.opFX07 (fieldX w))
  | 0x0A#8 => .ok (.opFX0A (fieldX w))
  | 0x15#8 => .ok (.opFX15 (fieldX w))
  | 0x18#8 => .ok (.opFX18 (fieldX w))
  | 0x1E#8 => .ok (.opFX1E (fieldX w))
  | 0x29#8 => .ok (.opFX29 (fieldX w))
  | 0x33#8 => .ok (.opFX33 (fieldX w))
  | 0x55#8 => .ok (.opFX55 (fieldX w))
  | 0x65#8 => .ok (.opFX65 (fieldX w))
  | _ => .error (.unknownInstruction w)

/-- The instruction a 16-bit word selects (R94 to R98), or the rejection of R101. Classes 0x5 and 0x9
ignore N (R94). The last arm is class 0xF, the one class the arms above leave. -/
def decodeWord (w : Word) : Except DecodeReject Instr :=
  match fieldClass w with
  | 0x0#4 => decodeClass0 w
  | 0x1#4 => .ok (.op1NNN (fieldNNN w))
  | 0x2#4 => .ok (.op2NNN (fieldNNN w))
  | 0x3#4 => .ok (.op3XNN (fieldX w) (fieldNN w))
  | 0x4#4 => .ok (.op4XNN (fieldX w) (fieldNN w))
  | 0x5#4 => .ok (.op5XY0 (fieldX w) (fieldY w))
  | 0x6#4 => .ok (.op6XNN (fieldX w) (fieldNN w))
  | 0x7#4 => .ok (.op7XNN (fieldX w) (fieldNN w))
  | 0x8#4 => decodeClass8 w
  | 0x9#4 => .ok (.op9XY0 (fieldX w) (fieldY w))
  | 0xA#4 => .ok (.opANNN (fieldNNN w))
  | 0xB#4 => .ok (.opBNNN (fieldNNN w))
  | 0xC#4 => .ok (.opCXNN (fieldX w) (fieldNN w))
  | 0xD#4 => .ok (.opDXYN (fieldX w) (fieldY w) (fieldN w))
  | 0xE#4 => decodeClassE w
  | _ => decodeClassF w

/-- The word of two consecutive bytes, "high byte first" (R62, R91). -/
def wordOfBytes (hi lo : Byte) : Word := hi ++ lo

/-- The byte at the lower address (R62). -/
def highByte (w : Word) : Byte := w.extractLsb' 8 8

/-- The byte at the higher address (R62). -/
def lowByte (w : Word) : Byte := w.extractLsb' 0 8

/-- Decode the first instruction of a byte list and give the bytes after it (R90: every instruction is
two bytes). -/
def decode : List Byte → Except DecodeReject (Instr × List Byte)
  | hi :: lo :: rest =>
    match decodeWord (wordOfBytes hi lo) with
    | .ok i => .ok (i, rest)
    | .error r => .error r
  | _ => .error .tooFewBytes

/-- The instruction the decoder reads from an instruction whose bits are `w`, numbered as
spec/opcode_table.json numbers them: one 16-bit word, laid out high byte first (R62). Bits at and above
`nbits` are 0. -/
def decodeTableWord (nbits w : Nat) : Option Instr :=
  let word : Word := BitVec.ofNat 16 (w % 2 ^ nbits)
  match decode [highByte word, lowByte word] with
  | .ok (i, _) => some i
  | .error _ => none

/-! ### The encoder (R90, R91, R100; R105: `5XY0` and `9XY0` are assembled with N = 0) -/

/-- A register number as the 4 bits of its field. -/
def regBits (r : Reg) : Nibble := BitVec.ofNat 4 r.val

/-- A word of the shape class, X, NN. -/
def wordXNN (c : Nibble) (x : Reg) (nn : Byte) : Word := c ++ (regBits x ++ nn)

/-- A word of the shape class, X, Y, N. -/
def wordXYN (c : Nibble) (x y : Reg) (n : Nibble) : Word := c ++ (regBits x ++ (regBits y ++ n))

/-- A word of the shape class, NNN. -/
def wordNNN (c : Nibble) (nnn : Imm12) : Word := c ++ nnn

/-- The word of an instruction. -/
def encode : Instr → Word
  | .op00E0 => 0x00E0
  | .op00EE => 0x00EE
  | .op1NNN nnn => wordNNN 0x1 nnn
  | .op2NNN nnn => wordNNN 0x2 nnn
  | .op3XNN x nn => wordXNN 0x3 x nn
  | .op4XNN x nn => wordXNN 0x4 x nn
  | .op5XY0 x y => wordXYN 0x5 x y 0x0
  | .op6XNN x nn => wordXNN 0x6 x nn
  | .op7XNN x nn => wordXNN 0x7 x nn
  | .op8XY0 x y => wordXYN 0x8 x y 0x0
  | .op8XY1 x y => wordXYN 0x8 x y 0x1
  | .op8XY2 x y => wordXYN 0x8 x y 0x2
  | .op8XY3 x y => wordXYN 0x8 x y 0x3
  | .op8XY4 x y => wordXYN 0x8 x y 0x4
  | .op8XY5 x y => wordXYN 0x8 x y 0x5
  | .op8XY6 x y => wordXYN 0x8 x y 0x6
  | .op8XY7 x y => wordXYN 0x8 x y 0x7
  | .op8XYE x y => wordXYN 0x8 x y 0xE
  | .op9XY0 x y => wordXYN 0x9 x y 0x0
  | .opANNN nnn => wordNNN 0xA nnn
  | .opBNNN nnn => wordNNN 0xB nnn
  | .opCXNN x nn => wordXNN 0xC x nn
  | .opDXYN x y n => wordXYN 0xD x y n
  | .opEX9E x => wordXNN 0xE x 0x9E
  | .opEXA1 x => wordXNN 0xE x 0xA1
  | .opFX07 x => wordXNN 0xF x 0x07
  | .opFX0A x => wordXNN 0xF x 0x0A
  | .opFX15 x => wordXNN 0xF x 0x15
  | .opFX18 x => wordXNN 0xF x 0x18
  | .opFX1E x => wordXNN 0xF x 0x1E
  | .opFX29 x => wordXNN 0xF x 0x29
  | .opFX33 x => wordXNN 0xF x 0x33
  | .opFX55 x => wordXNN 0xF x 0x55
  | .opFX65 x => wordXNN 0xF x 0x65

/-- The two bytes of an instruction as memory holds them, high byte first (R62). -/
def encodeBytes (i : Instr) : List Byte := [highByte (encode i), lowByte (encode i)]

/-! ### The opcode map (R100) as data -/

/-- A row of R100: "a word `w` selects the row when `(w AND mask) = match`". -/
structure OpcodeRow where
  /-- The row's `match`. -/
  pattern : Word
  /-- The row's `mask`. -/
  mask : Word
  deriving DecidableEq, Repr

/-- The row selects the word (R100). -/
def OpcodeRow.selects (r : OpcodeRow) (w : Word) : Bool := w &&& r.mask == r.pattern

/-- The row of R100 an instruction belongs to. -/
def Instr.row : Instr → OpcodeRow
  | .op00E0 => ⟨0x00E0, 0xFFFF⟩
  | .op00EE => ⟨0x00EE, 0xFFFF⟩
  | .op1NNN _ => ⟨0x1000, 0xF000⟩
  | .op2NNN _ => ⟨0x2000, 0xF000⟩
  | .op3XNN _ _ => ⟨0x3000, 0xF000⟩
  | .op4XNN _ _ => ⟨0x4000, 0xF000⟩
  | .op5XY0 _ _ => ⟨0x5000, 0xF000⟩
  | .op6XNN _ _ => ⟨0x6000, 0xF000⟩
  | .op7XNN _ _ => ⟨0x7000, 0xF000⟩
  | .op8XY0 _ _ => ⟨0x8000, 0xF00F⟩
  | .op8XY1 _ _ => ⟨0x8001, 0xF00F⟩
  | .op8XY2 _ _ => ⟨0x8002, 0xF00F⟩
  | .op8XY3 _ _ => ⟨0x8003, 0xF00F⟩
  | .op8XY4 _ _ => ⟨0x8004, 0xF00F⟩
  | .op8XY5 _ _ => ⟨0x8005, 0xF00F⟩
  | .op8XY6 _ _ => ⟨0x8006, 0xF00F⟩
  | .op8XY7 _ _ => ⟨0x8007, 0xF00F⟩
  | .op8XYE _ _ => ⟨0x800E, 0xF00F⟩
  | .op9XY0 _ _ => ⟨0x9000, 0xF000⟩
  | .opANNN _ => ⟨0xA000, 0xF000⟩
  | .opBNNN _ => ⟨0xB000, 0xF000⟩
  | .opCXNN _ _ => ⟨0xC000, 0xF000⟩
  | .opDXYN _ _ _ => ⟨0xD000, 0xF000⟩
  | .opEX9E _ => ⟨0xE09E, 0xF0FF⟩
  | .opEXA1 _ => ⟨0xE0A1, 0xF0FF⟩
  | .opFX07 _ => ⟨0xF007, 0xF0FF⟩
  | .opFX0A _ => ⟨0xF00A, 0xF0FF⟩
  | .opFX15 _ => ⟨0xF015, 0xF0FF⟩
  | .opFX18 _ => ⟨0xF018, 0xF0FF⟩
  | .opFX1E _ => ⟨0xF01E, 0xF0FF⟩
  | .opFX29 _ => ⟨0xF029, 0xF0FF⟩
  | .opFX33 _ => ⟨0xF033, 0xF0FF⟩
  | .opFX55 _ => ⟨0xF055, 0xF0FF⟩
  | .opFX65 _ => ⟨0xF065, 0xF0FF⟩

/-- The 34 rows of R100, in the table's order. -/
def opcodeMap : List OpcodeRow :=
  [⟨0x00E0, 0xFFFF⟩, ⟨0x00EE, 0xFFFF⟩, ⟨0x1000, 0xF000⟩, ⟨0x2000, 0xF000⟩, ⟨0x3000, 0xF000⟩,
   ⟨0x4000, 0xF000⟩, ⟨0x5000, 0xF000⟩, ⟨0x6000, 0xF000⟩, ⟨0x7000, 0xF000⟩] ++
  [⟨0x8000, 0xF00F⟩, ⟨0x8001, 0xF00F⟩, ⟨0x8002, 0xF00F⟩, ⟨0x8003, 0xF00F⟩, ⟨0x8004, 0xF00F⟩,
   ⟨0x8005, 0xF00F⟩, ⟨0x8006, 0xF00F⟩, ⟨0x8007, 0xF00F⟩, ⟨0x800E, 0xF00F⟩] ++
  [⟨0x9000, 0xF000⟩, ⟨0xA000, 0xF000⟩, ⟨0xB000, 0xF000⟩, ⟨0xC000, 0xF000⟩, ⟨0xD000, 0xF000⟩,
   ⟨0xE09E, 0xF0FF⟩, ⟨0xE0A1, 0xF0FF⟩] ++
  [⟨0xF007, 0xF0FF⟩, ⟨0xF00A, 0xF0FF⟩, ⟨0xF015, 0xF0FF⟩, ⟨0xF018, 0xF0FF⟩, ⟨0xF01E, 0xF0FF⟩,
   ⟨0xF029, 0xF0FF⟩, ⟨0xF033, 0xF0FF⟩, ⟨0xF055, 0xF0FF⟩, ⟨0xF065, 0xF0FF⟩]

end Sys2Proof
end

