-- ==== Sys2Proof/Machine/Flags.lean ====
section
/-! DEFINITION. Every flag computation of the unit; the only flag is register 15 (spec/10_state.md R22). -/

namespace Sys2Proof.Machine

/-- A flag as the byte 1 or 0. -/
def flagByte (c : Bool) : Byte := if c then 1 else 0

/-- `8XY4`: 1 if the sum, not reduced, is above 255 (R165). -/
def carryFlag (a b : Byte) : Byte := flagByte (255 < a.toNat + b.toNat)

/-- `8XY5` and `8XY7`: 1 if the minuend is strictly greater than the subtrahend (R166, R168). -/
def noBorrowFlag (a b : Byte) : Byte := flagByte (b.toNat < a.toNat)

/-- `8XY6`: the bit shifted out (R167). -/
def shiftedOutFlag (a : Byte) : Byte := a &&& 1

/-- `8XYE`: the high bit, as 0x80 or 0 when `SHL_VF_RAW`, else as 1 or 0 (R169). -/
def highBitFlag (raw : Bool) (a : Byte) : Byte := if raw then a &&& 0x80 else a >>> 7

/-- `FX1E`: 1 if the new `I` exceeds the threshold, strictly (R144). -/
def indexOverflowFlag (threshold : Nat) (newI : Word) : Byte := flagByte (threshold < newI.toNat)

/-- `DXYN`: the collision flag of one toggle, given the pixel before it: 1 when the pixel was on, else the
flag so far (R182, R185). -/
def collisionFlag (before : Bool) (soFar : Byte) : Byte := if before then 1 else soFar

end Sys2Proof.Machine
end

