-- ==== Sys2Proof/Config.lean ====
section
/-! DEFINITION. What an instance of the unit fixes before reset (spec/00_scope.md R6, R8, R9), with the
spec's defaults, and the free values: the input signals of a Poll for which the environment's list names
none (spec/10_state.md R38 to R42, R47; spec/93_implementation_defined.md U12, U13). -/

namespace Sys2Proof

/-- The parameters of R6 and R8: "parameters of the model, fixed for the life of one instance (set before
reset, never changed by a program)". State carries one value of this type that no event writes, so that
every statement about a State is a statement about every configuration (assumption 1). -/
structure Params where
  /-- `PROG_START`: where program bytes are loaded and where `pc` starts. -/
  progStart : Nat
  /-- `FONT_BASE`: address of the first font byte. -/
  fontBase : Nat
  /-- `IPS`: rate of the instruction gate, per second. -/
  ips : Nat
  /-- `FPS`: rate of the timer/frame gate, per second. -/
  fps : Nat
  /-- `STACK_CAP`: capacity of the call stack in entries. -/
  stackCap : Nat
  /-- `DISP_W`: display width in pixels. -/
  dispW : Nat
  /-- `DISP_H`: display height in pixels. -/
  dispH : Nat
  /-- `I_OVF_THRESHOLD`: `FX1E` writes VF = 1 when the new `I` is greater than this. -/
  iOvfThreshold : Nat
  /-- `SHL_VF_RAW`: true, `8XYE` writes VF = `V[X] AND 0x80`; false, bit 7 as 0 or 1. -/
  shlVfRaw : Bool
  /-- `SHIFT_USES_VY`: true, `8XY6` and `8XYE` first copy `V[Y]` into `V[X]`. -/
  shiftUsesVy : Bool
  /-- `FONT_DATA`: the 80 font bytes seeded at `FONT_BASE` at reset. -/
  fontData : List Byte
  /-- `CLOCK_HZ`: number of units of the `now` input per second. -/
  clockHz : Nat
  deriving DecidableEq, Repr

namespace Config

/-- The default `FONT_DATA` of R292, glyph by glyph (PRESUMED, assumption 10: the spec itself marks the
bytes "from general knowledge, not in source"). -/
def defaultFont : List Byte :=
  [0xF0, 0x90, 0x90, 0x90, 0xF0, 0x20, 0x60, 0x20, 0x20, 0x70,
   0xF0, 0x10, 0xF0, 0x80, 0xF0, 0xF0, 0x10, 0xF0, 0x10, 0xF0] ++
  [0x90, 0x90, 0xF0, 0x10, 0x10, 0xF0, 0x80, 0xF0, 0x10, 0xF0,
   0xF0, 0x80, 0xF0, 0x90, 0xF0, 0xF0, 0x10, 0x20, 0x40, 0x40] ++
  [0xF0, 0x90, 0xF0, 0x90, 0xF0, 0xF0, 0x90, 0xF0, 0x10, 0xF0,
   0xF0, 0x90, 0xF0, 0x90, 0x90, 0xE0, 0x90, 0xE0, 0x90, 0xE0] ++
  [0xF0, 0x80, 0x80, 0x80, 0xF0, 0xE0, 0x90, 0x90, 0x90, 0xE0,
   0xF0, 0x80, 0xF0, 0x80, 0xF0, 0xF0, 0x80, 0xF0, 0x80, 0x80]

/-- The defaults of R6 and R8. `CLOCK_HZ` has none in the spec ("OPEN, no default"): 700 units a second
is the model's (DESIGN CHOICE, assumption 2). -/
def defaultParams : Params where
  progStart := 0x200
  fontBase := 0x050
  ips := 700
  fps := 60
  stackCap := 15
  dispW := 64
  dispH := 32
  iOvfThreshold := 0x1000
  shlVfRaw := true
  shiftUsesVy := false
  fontData := defaultFont
  clockHz := 700

/-- FREE VALUE: the `key_valid` input of the n-th Poll when the environment's list names none (R40,
assumption 3). -/
opaque freeKeyValid : Nat → Bool

/-- FREE VALUE: the `key_code` input of the n-th Poll (R40, assumption 3). -/
opaque freeKeyCode : Nat → Nibble

/-- FREE VALUE: the `key_down` input of the n-th Poll (R41, assumption 3). -/
opaque freeKeyDown : Nat → BitVec 16

/-- FREE VALUE: the `rnd` input of the n-th Poll (R42, "a free 8-bit input of the step", assumption 3). -/
opaque freeRnd : Nat → Byte

end Config

end Sys2Proof
end

