-- ==== Sys2Proof/Machine/State.lean ====
section
/-! DEFINITION. The state of the unit (spec/10_state.md R20 to R32), the events its environment presents
(R38 to R47), and the state after Reset (R37). -/

namespace Sys2Proof.Machine

/-- The five error kinds of R240. -/
inductive ErrorKind where
  /-- code 1: "push beyond capacity". -/
  | stackOverflow
  /-- code 2: "pop/return with empty stack". -/
  | stackUnderflow
  /-- code 3: "sprite or index-register access beyond the memory array", and the fetch (R64). -/
  | memoryOutOfBounds
  /-- code 4: "an operation/sub-key combination with no defined semantics". -/
  | unknownInstruction
  /-- code 5: "program bytes exceed remaining memory"; raised by Load only. -/
  | romTooLarge
  deriving DecidableEq, Repr

/-- The input signals of one Poll, "one record of free values" (R47). -/
structure Inputs where
  /-- `now`: the monotonic clock reading, `CLOCK_HZ` units per second (R39). -/
  now : Nat
  /-- `key_valid`: the keyboard reports a pressed key (R40). -/
  keyValid : Bool
  /-- `key_code`: the code of that key (R40). -/
  keyCode : Nibble
  /-- `key_down`: bit k is 1 while key k is held (R41). -/
  keyDown : BitVec 16
  /-- `rnd`: a random byte (R42). -/
  rnd : Byte
  deriving DecidableEq, Repr

/-- What the environment does to the unit: "The events are Reset, Load and Poll" (spec/
92_eei_decisions.md D1). -/
inductive Event where
  /-- The `reset` input (R46, R290). -/
  | reset
  /-- The `load_data` and `load_len` inputs (R46, R293). -/
  | load (rom : List Byte)
  /-- One Poll with its inputs (R253). -/
  | poll (inputs : Inputs)
  deriving DecidableEq, Repr

/-- Memory as the addresses whose byte differs from what Reset leaves there: addresses strictly rising,
no entry equal to what an unlisted address reads as (`Memory.wf` in Machine/Ops.lean). -/
abbrev Memory := List Host.Cell

/-- The state of R20, then the model's own fields. -/
structure State where
  /-- The parameters, fixed for the instance (R6, R8); the model's own field (assumption 1). -/
  params : Params
  /-- `mem`: 4096 bytes (R60). -/
  mem : Memory
  /-- `V[0]` .. `V[15]`: sixteen 8-bit registers; `V[15]` is VF (R21, R22). -/
  V : Vector Byte 16
  /-- `I`: the index register (R23). -/
  I : Word
  /-- `pc`: the program counter (R24). -/
  pc : Word
  /-- `stack[0]` .. `stack[STACK_CAP-1]` (R25). -/
  stack : List Word
  /-- `sp`: the depth of the call stack (R25). -/
  sp : Nat
  /-- `DT`: the delay timer (R26). -/
  DT : Byte
  /-- `ST`: the sound timer (R26). -/
  ST : Byte
  /-- `disp`: `DISP_H` rows of `DISP_W` pixels, row 0 at the top, column 0 at the left (R27). -/
  disp : List (List Bool)
  /-- `keyBlocked`: false is `Idle`, true is `WaitingForKey` (R28, R200). -/
  keyBlocked : Bool
  /-- `stepGate` (R29). -/
  stepGate : Bool
  /-- `tInstr`: the instruction gate's "last admitted" stamp (R30). -/
  tInstr : Nat
  /-- `tFrame`: the timer/frame gate's "last admitted" stamp (R30). -/
  tFrame : Nat
  /-- `fault`: the latched error kind, `none` for code 0 (R31). -/
  fault : Option ErrorKind
  /-- The model's own: the events the environment presents next, the first one first (assumption 3). -/
  events : List Event
  /-- The model's own: the last clock reading presented (assumption 4). -/
  lastNow : Nat
  /-- The model's own: how many Polls there have been; indexes the free inputs (assumption 3). -/
  polls : Nat
  /-- The model's own: Load is still legal, that is, Reset has happened and neither a Load nor a Poll since
  (R293, assumption 8). -/
  loadOpen : Bool
  /-- The model's own: how many times the `present` strobe has been raised (R44, assumption 11). -/
  presents : Nat
  deriving DecidableEq, Repr

/-- Why the model stops. No error of R240 is here: an error is a next state whose `fault` latch is set
(R242). -/
inductive Fault where
  /-- Raised by the instruction step of a Poll when `keyBlocked` = 1 and the word at `pc` is not an `FX0A`:
  "cannot be reached from reset ... a model may refuse it" (R204; spec/93_implementation_defined.md U19).
  Safe: no run from reset reaches it (assumption 6). -/
  | keyWaitWithoutFX0A
  deriving DecidableEq, Repr

/-- Why the model refuses. -/
inductive Refusal where
  /-- Raised by `exec` for an instruction that has no meaning yet; no arm does. Safe. -/
  | notModelled (mnemonic : String)
  /-- Raised by every event of a State whose parameters break R9: "A model may refuse a configuration that
  breaks a constraint" (spec/93_implementation_defined.md U21). Safe (assumption 7). -/
  | parametersInvalid
  /-- Raised by a Load that is not the first since Reset or comes after a Poll: "Load is legal once, after
  Reset and before the first Poll" (R293; spec/93_implementation_defined.md U22). Safe (assumption 8). -/
  | loadNotLegal
  deriving DecidableEq, Repr

/-- The state the Reset event leaves under the parameters `p` (R37, R290): memory is what Reset seeds, so
nothing is listed; `pc` is `PROG_START`; everything else is zero. The environment's list is empty. -/
def State.resetWith (p : Params) : State where
  params := p
  mem := []
  V := Vector.replicate 16 0
  I := 0
  pc := BitVec.ofNat 16 p.progStart
  stack := List.replicate p.stackCap 0
  sp := 0
  DT := 0
  ST := 0
  disp := List.replicate p.dispH (List.replicate p.dispW false)
  keyBlocked := false
  stepGate := false
  tInstr := 0
  tFrame := 0
  fault := none
  events := []
  lastNow := 0
  polls := 0
  loadOpen := true
  presents := 0

/-- The machine right after Reset with the default parameters (R37, R290, R6, R8). -/
def State.reset : State := State.resetWith Config.defaultParams

end Sys2Proof.Machine
end

