-- ==== Sys2Proof/WellFormed.lean ====
section
/-! DEFINITION. What is well formed: a configuration (spec/00_scope.md R9), a program (spec/
70_reset_and_hazards.md R293), an instruction. -/

namespace Sys2Proof

/-- The constraints of R9 on the parameters, all of them, and the 80 bytes R8 gives `FONT_DATA`. A
configuration that breaks one is refused (spec/93_implementation_defined.md U21, assumption 7). -/
abbrev Params.wf (p : Params) : Prop :=
  p.fontBase + 80 ≤ memSize ∧ p.progStart ≤ 4095 ∧ 1 ≤ p.stackCap ∧ 1 ≤ p.dispW ∧ 1 ≤ p.dispH ∧
  1 ≤ p.ips ∧ 1 ≤ p.fps ∧ 1 ≤ p.clockHz ∧ p.iOvfThreshold ≤ 0xFFFF ∧ p.fontData.length = 80

/-- A program fits in memory from `PROG_START` on: Load raises `RomTooLarge` exactly when it does not
(R293). -/
abbrev romFits (p : Params) (rom : List Byte) : Prop := p.progStart + rom.length ≤ memSize

/-- Every term of `Instr` is well formed: each operand's type holds exactly the values of its field (R91,
R92), and no rule forbids a combination of operands ("no register number can be out of range", R21; R94,
R99, R102). There is therefore no check that a term could fail. -/
abbrev Instr.wf (_ : Instr) : Prop := True

end Sys2Proof
end

