-- ==== Sys2Proof/Machine/Ops.lean ====
section
/-! DEFINITION. The named operations over memory, registers, the call stack, the display and the `fault`
latch (spec/20_memory.md, spec/10_state.md, spec/60_exceptions.md section 2). -/

namespace Sys2Proof.Machine

/-! ### Memory (R60, R64) -/

/-- What an unlisted address reads as: the reset contents, `FONT_DATA` in the font region and 0 elsewhere
(R37). -/
def background (p : Params) (a : Nat) : Byte :=
  if p.fontBase ≤ a ∧ a < p.fontBase + 80 then p.fontData.getD (a - p.fontBase) 0 else 0

/-- The listed byte of an address. -/
def Memory.lookup (a : Nat) : Memory → Option Byte
  | [] => none
  | (b, u) :: m => if b = a then some u else Memory.lookup a m

/-- The byte memory holds at an address. -/
def Memory.read (p : Params) (m : Memory) (a : Nat) : Byte := (Memory.lookup a m).getD (background p a)

/-- Put a byte at an address, keeping the canonical form: a byte equal to the background is not listed. -/
def Memory.write (p : Params) (a : Nat) (v : Byte) : Memory → Memory
  | [] => if v = background p a then [] else [(a, v)]
  | (b, u) :: m =>
    if a < b then if v = background p a then (b, u) :: m else (a, v) :: (b, u) :: m
    else if a = b then if v = background p a then m else (a, v) :: m
    else (b, u) :: Memory.write p a v m

/-- The canonical form: addresses strictly rising, each inside memory, no byte equal to what its address
reads as unlisted. -/
abbrev Memory.wf (p : Params) (m : Memory) : Prop :=
  m.Pairwise (fun c d => c.1 < d.1) ∧ ∀ c ∈ m, c.1 < memSize ∧ c.2 ≠ background p c.1

/-! ### One updater per element (R20) -/

/-- `V[r] <- b`. -/
def State.setReg (s : State) (r : Reg) (b : Byte) : State := { s with V := s.V.set r.val b r.isLt }

/-- `I <- w`. -/
def State.setI (s : State) (w : Word) : State := { s with I := w }

/-- `pc <- w`. -/
def State.setPc (s : State) (w : Word) : State := { s with pc := w }

/-- `DT <- b`. -/
def State.setDT (s : State) (b : Byte) : State := { s with DT := b }

/-- `ST <- b`. -/
def State.setST (s : State) (b : Byte) : State := { s with ST := b }

/-- Replace memory. -/
def State.setMem (s : State) (m : Memory) : State := { s with mem := m }

/-- Replace the call stack, entries and depth. -/
def State.setStack (s : State) (st : List Word) (sp : Nat) : State := { s with stack := st, sp := sp }

/-- Replace the display buffer. -/
def State.setDisp (s : State) (d : List (List Bool)) : State := { s with disp := d }

/-- `keyBlocked <- b`. -/
def State.setKeyBlocked (s : State) (b : Bool) : State := { s with keyBlocked := b }

/-- `stepGate <- b`. -/
def State.setStepGate (s : State) (b : Bool) : State := { s with stepGate := b }

/-- `tInstr <- t`. -/
def State.setTInstr (s : State) (t : Nat) : State := { s with tInstr := t }

/-- `tFrame <- t`. -/
def State.setTFrame (s : State) (t : Nat) : State := { s with tFrame := t }

/-- `fault <- code(K)`. -/
def State.setFault (s : State) (f : Option ErrorKind) : State := { s with fault := f }

/-- Replace the events the environment presents next (assumption 3). -/
def State.setEvents (s : State) (es : List Event) : State := { s with events := es }

/-- Raise the `present` strobe (R44). -/
def State.strobePresent (s : State) : State := { s with presents := s.presents + 1 }

/-! ### Taking an error (R242): this unit's exceptions -/

/-- `raise K(info)`: "the event in progress stops at that statement; `fault <- code(K)`; `stepGate <- 0`;
nothing else is written". There is no vector, no saved `pc` and no mode: control goes nowhere. The caller
answers with this state and does nothing after it. -/
def State.raise (s : State) (k : ErrorKind) : State := (s.setFault (some k)).setStepGate false

/-- `code(K)`, the value the latch takes (R240, R31). -/
def ErrorKind.code : ErrorKind → BitVec 3
  | .stackOverflow => 1
  | .stackUnderflow => 2
  | .memoryOutOfBounds => 3
  | .unknownInstruction => 4
  | .romTooLarge => 5

/-! There is no return from an error: "There is no return-from-trap instruction"; only the Reset event
clears `fault` (R244; `State.resetEvent` in Machine/Boot.lean). -/

/-! ### Data access (R64, R65, R67): addresses are natural numbers, checked, never wrapped -/

/-- The byte at an address. -/
def State.readByte (s : State) (a : Nat) : Byte := Memory.read s.params s.mem a

/-- `MemRead(addr, 1)`: nothing when it raises `MemoryOutOfBounds`. -/
def State.memRead (s : State) (a : Nat) : Option Byte := if a < memSize then some (s.readByte a) else none

/-- `MemWrite(addr, 1, v)`: nothing when it raises `MemoryOutOfBounds`. -/
def State.memWrite (s : State) (a : Nat) (v : Byte) : Option State :=
  if a < memSize then some (s.setMem (Memory.write s.params a v s.mem)) else none

/-- Stores made one after the other; the first one out of range raises, and those before it stay (R67,
R243). -/
def storeAll : List Host.Cell → State → State
  | [], s => s
  | (a, v) :: rest, s =>
    match s.memWrite a v with
    | some s' => storeAll rest s'
    | none => s.raise .memoryOutOfBounds

/-- Register loads made one after the other; the first one out of range raises, and those before it stay
(R67, R243). -/
def loadAll : List (Nat × Reg) → State → State
  | [], s => s
  | (a, r) :: rest, s =>
    match s.memRead a with
    | some b => loadAll rest (s.setReg r b)
    | none => s.raise .memoryOutOfBounds

/-! ### The program counter (R24): additions are modulo 65536 -/

/-- `pc <- (pc + 2) mod 65536`: the fetch advance (R93) and the skip (R120). -/
def State.advancePc (s : State) : State := s.setPc (s.pc + 2)

/-- `pc <- (pc - 2) mod 65536` (R203). -/
def State.rewindPc (s : State) : State := s.setPc (s.pc - 2)

/-- "Skip next instruction" when the condition holds (R120). -/
def State.skipIf (s : State) (c : Bool) : State := if c then s.advancePc else s

/-! ### The call stack (R25) -/

/-- Push, "allowed only when `sp < STACK_CAP`"; nothing when it is not (the caller raises
`StackOverflow`). -/
def State.push (s : State) (w : Word) : Option State :=
  if s.sp < s.params.stackCap then some (s.setStack (s.stack.set s.sp w) (s.sp + 1)) else none

/-- Pop, "allowed only when `sp > 0`": the top entry and the state with one entry less. The freed slot keeps
its bits (R121). -/
def State.pop (s : State) : Option (Word × State) :=
  if 0 < s.sp then some (s.stack.getD (s.sp - 1) 0, s.setStack s.stack (s.sp - 1)) else none

/-! ### The display-buffer controller (R180): clear all, read one pixel, toggle one pixel -/

/-- `disp[y][x]`; a position outside the grid reads off. -/
def State.pixel (s : State) (x y : Nat) : Bool := (s.disp.getD y []).getD x false

/-- `disp[y][x] <- disp[y][x] XOR 1`. -/
def State.togglePixel (s : State) (x y : Nat) : State :=
  s.setDisp (s.disp.modify y (fun row => row.modify x not))

/-- Every pixel off (R181). -/
def State.clearDisplay (s : State) : State :=
  s.setDisp (List.replicate s.params.dispH (List.replicate s.params.dispW false))

/-! ### The outputs (R43 to R46), functions of the state -/

/-- `disp_rd`: the whole display buffer (R43). -/
def State.dispRd (s : State) : List (List Bool) := s.disp

/-- `sound_on` = 1 exactly when `ST` > 0 (R45). -/
def State.soundOn (s : State) : Bool := 0 < s.ST

/-- The `fault` output: the code of the latch, 0 for none (R46, R31). -/
def State.faultOut (s : State) : BitVec 3 :=
  match s.fault with
  | none => 0
  | some k => k.code

/-- The `key_blocked` output (R46). -/
def State.keyBlockedOut (s : State) : Bool := s.keyBlocked

/-! ### Outcomes -/

/-- Go on from a next state; a fault or a refusal stays. -/
def onNext (o : Host.Outcome State Fault Refusal) (f : State → State) : Host.Outcome State Fault Refusal :=
  match o with
  | .next s => .next (f s)
  | .fault r => .fault r
  | .refused r => .refused r

end Sys2Proof.Machine
end

