-- ==== Sys2Proof/Machine/Operands.lean ====
section
/-! DEFINITION. Every operand form: registers, the index register with an offset, immediates, and the input
signals an instruction samples (spec/30_encoding.md R92, spec/45_timers_and_memory.md R227, spec/
10_state.md R47). -/

namespace Sys2Proof.Machine

/-- `V[r]`. -/
def State.reg (s : State) (r : Reg) : Byte := s.V[r.val]'r.isLt

/-- `zext_16(NNN)` (R92). -/
def zext12 (nnn : Imm12) : Word := nnn.setWidth 16

/-- `zext_16` of a byte (R92). -/
def zext8 (b : Byte) : Word := b.setWidth 16

/-- The effective address `I + k`, a natural number that is not reduced (R65, R227). -/
def State.effAddr (s : State) (k : Nat) : Nat := s.I.toNat + k

/-- The registers 0 to X, in order (R224, R225). -/
def regsTo (x : Reg) : List Reg := (List.finRange 16).take (x.val + 1)

/-- The three decimal digits of a byte, hundreds first (R223). -/
def bcdDigits (v : Byte) : List Byte :=
  [BitVec.ofNat 8 (v.toNat / 100), BitVec.ofNat 8 (v.toNat / 10 % 10), BitVec.ofNat 8 (v.toNat % 10)]

/-- The cells `FX33` stores: the digits at `I`, `I + 1`, `I + 2` (R223). -/
def State.bcdCells (s : State) (x : Reg) : List Host.Cell :=
  (List.range 3).map fun k => (s.effAddr k, (bcdDigits (s.reg x)).getD k 0)

/-- The cells `FX55` stores: `V[j]` at `I + j` for j = 0..X (R224). -/
def State.dumpCells (s : State) (x : Reg) : List Host.Cell :=
  (regsTo x).map fun j => (s.effAddr j.val, s.reg j)

/-- What `FX65` loads: `V[j]` from `I + j` for j = 0..X (R225). -/
def State.loadPlan (s : State) (x : Reg) : List (Nat × Reg) :=
  (regsTo x).map fun j => (s.effAddr j.val, j)

/-- `FONT_BASE + (V[X] AND 0x0F) * 5` (R145). -/
def State.glyphAddr (s : State) (x : Reg) : Word :=
  BitVec.ofNat 16 (s.params.fontBase + (s.reg x &&& 0x0F).toNat * 5)

/-! ### Input signals (R47) -/

/-- The inputs of the n-th Poll when the environment's list names none: the clock goes on by one unit, as
when "`now` is a free-running cycle counter and every clock cycle is a Poll" (R39, R301; assumption 4), and
every other signal is a free value (assumption 3). -/
def freeInputs (lastNow polls : Nat) : Inputs where
  now := lastNow + 1
  keyValid := Config.freeKeyValid polls
  keyCode := Config.freeKeyCode polls
  keyDown := Config.freeKeyDown polls
  rnd := Config.freeRnd polls

/-- The signals of the Poll at hand. -/
def State.inputs (s : State) : Inputs :=
  match s.events with
  | .poll i :: _ => i
  | _ => freeInputs s.lastNow s.polls

/-- The key a skip tests: `V[X] AND 0x0F` (R201). -/
def State.keyIndex (s : State) (x : Reg) : Nat := (s.reg x &&& 0x0F).toNat

/-- `key_down[k]` for that key (R41, R201). -/
def State.keyIsDown (s : State) (x : Reg) : Bool := s.inputs.keyDown.getLsbD (s.keyIndex x)

end Sys2Proof.Machine
end

