-- ==== Sys2Proof/Machine/Alu.lean ====
section
/-! DEFINITION. Register-to-register ALU instructions (spec/42_alu_register.md R160 to R172). "Statements run
in order and each reads the registers as the statement before left them" (R160, decision D3; assumption 9):
`s1`, `s2` are the states between the statements of a rule. -/

namespace Sys2Proof.Machine

/-- `8XY0` (R161): `V[X] <- V[Y]`. -/
def exec8XY0 (x y : Reg) (s : State) : Host.Outcome State Fault Refusal := .next (s.setReg x (s.reg y))

/-- `8XY1` (R162): `V[X] <- V[X] OR V[Y]`. -/
def exec8XY1 (x y : Reg) (s : State) : Host.Outcome State Fault Refusal :=
  .next (s.setReg x (s.reg x ||| s.reg y))

/-- `8XY2` (R163): `V[X] <- V[X] AND V[Y]`. -/
def exec8XY2 (x y : Reg) (s : State) : Host.Outcome State Fault Refusal :=
  .next (s.setReg x (s.reg x &&& s.reg y))

/-- `8XY3` (R164): `V[X] <- V[X] XOR V[Y]`. -/
def exec8XY3 (x y : Reg) (s : State) : Host.Outcome State Fault Refusal :=
  .next (s.setReg x (s.reg x ^^^ s.reg y))

/-- `8XY4` (R165): `sum <- V[X] + V[Y]; VF <- 1 if sum > 255 else 0; V[X] <- sum mod 256`; `sum` is taken from
the registers before VF is written. -/
def exec8XY4 (x y : Reg) (s : State) : Host.Outcome State Fault Refusal :=
  let s1 := s.setReg VF (carryFlag (s.reg x) (s.reg y))
  .next (s1.setReg x (s.reg x + s.reg y))

/-- `8XY5` (R166): `VF <- 1 if V[X] > V[Y] else 0; V[X] <- (V[X] - V[Y]) mod 256`, read again after the flag
write. -/
def exec8XY5 (x y : Reg) (s : State) : Host.Outcome State Fault Refusal :=
  let s1 := s.setReg VF (noBorrowFlag (s.reg x) (s.reg y))
  .next (s1.setReg x (s1.reg x - s1.reg y))

/-- The first statement of the shifts: `if SHIFT_USES_VY: V[X] <- V[Y]` (R167, R169). -/
def shiftSource (x y : Reg) (s : State) : State :=
  if s.params.shiftUsesVy then s.setReg x (s.reg y) else s

/-- `8XY6` (R167): `VF <- V[X] AND 1; V[X] <- V[X] >> 1`, a logical shift. -/
def exec8XY6 (x y : Reg) (s : State) : Host.Outcome State Fault Refusal :=
  let s1 := shiftSource x y s
  let s2 := s1.setReg VF (shiftedOutFlag (s1.reg x))
  .next (s2.setReg x (s2.reg x >>> 1))

/-- `8XY7` (R168): `VF <- 1 if V[Y] > V[X] else 0; V[X] <- (V[Y] - V[X]) mod 256`, read again after the flag
write. -/
def exec8XY7 (x y : Reg) (s : State) : Host.Outcome State Fault Refusal :=
  let s1 := s.setReg VF (noBorrowFlag (s.reg y) (s.reg x))
  .next (s1.setReg x (s1.reg y - s1.reg x))

/-- `8XYE` (R169): `VF <- V[X] AND 0x80` or `V[X] >> 7`; `V[X] <- (V[X] << 1) mod 256`. -/
def exec8XYE (x y : Reg) (s : State) : Host.Outcome State Fault Refusal :=
  let s1 := shiftSource x y s
  let s2 := s1.setReg VF (highBitFlag s1.params.shlVfRaw (s1.reg x))
  .next (s2.setReg x (s2.reg x <<< 1))

end Sys2Proof.Machine
end

