-- ==== Sys2Proof/Machine/Control.lean ====
section
/-! DEFINITION. Control transfer and skips (spec/40_control_flow.md R120 to R129). In every meaning `pc`
already holds the instruction's address plus 2 (R93). -/

namespace Sys2Proof.Machine

/-- `00EE` (R121): `if sp = 0: raise StackUnderflow(); sp <- sp - 1; pc <- stack[sp]`. -/
def exec00EE (s : State) : Host.Outcome State Fault Refusal :=
  match s.pop with
  | some (w, s') => .next (s'.setPc w)
  | none => .next (s.raise .stackUnderflow)

/-- `1NNN` (R122): `pc <- zext_16(NNN)`. -/
def exec1NNN (nnn : Imm12) (s : State) : Host.Outcome State Fault Refusal := .next (s.setPc (zext12 nnn))

/-- `2NNN` (R123): `if sp = STACK_CAP: raise StackOverflow(); stack[sp] <- pc; sp <- sp + 1; pc <- NNN`. -/
def exec2NNN (nnn : Imm12) (s : State) : Host.Outcome State Fault Refusal :=
  match s.push s.pc with
  | some s' => .next (s'.setPc (zext12 nnn))
  | none => .next (s.raise .stackOverflow)

/-- `BNNN` (R124): `pc <- zext_16(NNN) + zext_16(V[0])`, not reduced to 12 bits. -/
def execBNNN (nnn : Imm12) (s : State) : Host.Outcome State Fault Refusal :=
  .next (s.setPc (zext12 nnn + zext8 (s.reg 0)))

/-- `3XNN` (R125): skip if `V[X] = NN`. -/
def exec3XNN (x : Reg) (nn : Byte) (s : State) : Host.Outcome State Fault Refusal :=
  .next (s.skipIf (s.reg x == nn))

/-- `4XNN` (R126): skip if `V[X] != NN`. -/
def exec4XNN (x : Reg) (nn : Byte) (s : State) : Host.Outcome State Fault Refusal :=
  .next (s.skipIf (s.reg x != nn))

/-- `5XY0` (R127): skip if `V[X] = V[Y]`. -/
def exec5XY0 (x y : Reg) (s : State) : Host.Outcome State Fault Refusal :=
  .next (s.skipIf (s.reg x == s.reg y))

/-- `9XY0` (R128): skip if `V[X] != V[Y]`. -/
def exec9XY0 (x y : Reg) (s : State) : Host.Outcome State Fault Refusal :=
  .next (s.skipIf (s.reg x != s.reg y))

end Sys2Proof.Machine
end

