-- ==== Sys2Proof/Machine/Display.lean ====
section
/-! DEFINITION. Display instructions (spec/43_display.md R180 to R187). -/

namespace Sys2Proof.Machine

/-- `00E0` (R181): every pixel off. -/
def exec00E0 (s : State) : Host.Outcome State Fault Refusal := .next s.clearDisplay

/-- One sprite bit of 1 on pixel (x, y): `if disp[y][x] = 1: VF <- 1`, then toggle it (R182). -/
def drawBit (x y : Nat) (s : State) : State :=
  (s.setReg VF (collisionFlag (s.pixel x y) (s.reg VF))).togglePixel x y

/-- The columns `cs` of one sprite row, most significant bit first, clipped at the right edge (R182,
R183). -/
def drawCols (xPos y : Nat) (row : Byte) : List Nat → State → State
  | [], s => s
  | c :: cs, s =>
    if s.params.dispW ≤ xPos + c then s
    else drawCols xPos y row cs (if row.getLsbD (7 - c) then drawBit (xPos + c) y s else s)

/-- The rows `is` of the sprite, clipped at the bottom; a clipped row is not read (R182, R183). -/
def drawRows (xPos yPos : Nat) : List Nat → State → State
  | [], s => s
  | i :: is, s =>
    if s.params.dispH ≤ yPos + i then s
    else
      match s.memRead (s.effAddr i) with
      | some row => drawRows xPos yPos is (drawCols xPos (yPos + i) row (List.range 8) s)
      | none => s.raise .memoryOutOfBounds

/-- The column a sprite starts at: `V[X] mod DISP_W` (R182). -/
def State.spriteX (s : State) (x : Reg) : Nat := (s.reg x).toNat % s.params.dispW

/-- The row a sprite starts at: `V[Y] mod DISP_H` (R182). -/
def State.spriteY (s : State) (y : Reg) : Nat := (s.reg y).toNat % s.params.dispH

/-- `DXYN` (R182): "both positions are taken before VF is reset" (decision D34). -/
def execDXYN (x y : Reg) (n : Nibble) (s : State) : Host.Outcome State Fault Refusal :=
  .next (drawRows (s.spriteX x) (s.spriteY y) (List.range n.toNat) (s.setReg VF 0))

end Sys2Proof.Machine
end

