-- ==== Sys2Proof/Machine/Immediate.lean ====
section
/-! DEFINITION. Immediate, random and index-register instructions (spec/41_immediate_and_index.md R140 to
R146). -/

namespace Sys2Proof.Machine

/-- `6XNN` (R140): `V[X] <- NN`. -/
def exec6XNN (x : Reg) (nn : Byte) (s : State) : Host.Outcome State Fault Refusal := .next (s.setReg x nn)

/-- `7XNN` (R141): `V[X] <- (V[X] + NN) mod 256`, no flag. -/
def exec7XNN (x : Reg) (nn : Byte) (s : State) : Host.Outcome State Fault Refusal :=
  .next (s.setReg x (s.reg x + nn))

/-- `ANNN` (R142): `I <- zext_16(NNN)`. -/
def execANNN (nnn : Imm12) (s : State) : Host.Outcome State Fault Refusal := .next (s.setI (zext12 nnn))

/-- `CXNN` (R143): `V[X] <- rnd AND NN`. -/
def execCXNN (x : Reg) (nn : Byte) (s : State) : Host.Outcome State Fault Refusal :=
  .next (s.setReg x (s.inputs.rnd &&& nn))

/-- `FX1E` (R144): `I <- (I + zext_16(V[X])) mod 65536; VF <- 1 if I > I_OVF_THRESHOLD else 0`, the flag from
the new `I`. -/
def execFX1E (x : Reg) (s : State) : Host.Outcome State Fault Refusal :=
  let s1 := s.setI (s.I + zext8 (s.reg x))
  .next (s1.setReg VF (indexOverflowFlag s1.params.iOvfThreshold s1.I))

/-- `FX29` (R145): `I <- FONT_BASE + (V[X] AND 0x0F) * 5`. -/
def execFX29 (x : Reg) (s : State) : Host.Outcome State Fault Refusal := .next (s.setI (s.glyphAddr x))

end Sys2Proof.Machine
end

