-- ==== Sys2Proof/Machine/Key.lean ====
section
/-! DEFINITION. Key instructions and the InputGate (spec/44_key_input.md R200 to R206). -/

namespace Sys2Proof.Machine

/-- `EX9E` (R201): skip if key `V[X] AND 0x0F` is down. -/
def execEX9E (x : Reg) (s : State) : Host.Outcome State Fault Refusal := .next (s.skipIf (s.keyIsDown x))

/-- `EXA1` (R202): skip if key `V[X] AND 0x0F` is not down. -/
def execEXA1 (x : Reg) (s : State) : Host.Outcome State Fault Refusal := .next (s.skipIf (!s.keyIsDown x))

/-- `FX0A` (R203): enter the wait, resume with the reported key, or keep waiting. -/
def execFX0A (x : Reg) (s : State) : Host.Outcome State Fault Refusal :=
  if s.keyBlocked then
    if s.inputs.keyValid then .next ((s.setReg x (s.inputs.keyCode.setWidth 8)).setKeyBlocked false)
    else .next s.rewindPc
  else .next (s.setKeyBlocked true).rewindPc

end Sys2Proof.Machine
end

