-- ==== Sys2Proof/Machine/Transfer.lean ====
section
/-! DEFINITION. Timer access and memory transfers (spec/45_timers_and_memory.md R220 to R227). -/

namespace Sys2Proof.Machine

/-- `FX07` (R220): `V[X] <- DT`. -/
def execFX07 (x : Reg) (s : State) : Host.Outcome State Fault Refusal := .next (s.setReg x s.DT)

/-- `FX15` (R221): `DT <- V[X]`. -/
def execFX15 (x : Reg) (s : State) : Host.Outcome State Fault Refusal := .next (s.setDT (s.reg x))

/-- `FX18` (R222): `ST <- V[X]`. -/
def execFX18 (x : Reg) (s : State) : Host.Outcome State Fault Refusal := .next (s.setST (s.reg x))

/-- `FX33` (R223): the digits of `V[X]` at `I`, `I + 1`, `I + 2`; `I` is unchanged. -/
def execFX33 (x : Reg) (s : State) : Host.Outcome State Fault Refusal := .next (storeAll (s.bcdCells x) s)

/-- `FX55` (R224): `V[0]` to `V[X]` at `I` on; `I` is unchanged. -/
def execFX55 (x : Reg) (s : State) : Host.Outcome State Fault Refusal := .next (storeAll (s.dumpCells x) s)

/-- `FX65` (R225): `V[0]` to `V[X]` from `I` on; `I` is unchanged. -/
def execFX65 (x : Reg) (s : State) : Host.Outcome State Fault Refusal := .next (loadAll (s.loadPlan x) s)

end Sys2Proof.Machine
end

