-- ==== Sys2Proof/Machine/Pacer.lean ====
section
/-! DEFINITION. The fetch, the instruction step, the pacer's two gates, the timer tick and the Poll event
(spec/30_encoding.md R93, spec/60_exceptions.md R250 to R258). -/

namespace Sys2Proof.Machine

/-! ### The fetch (R62, R64, R93) -/

/-- The word at `pc`, high byte first; nothing when `pc + 1 > 0xFFF`, and then neither byte is read. -/
def State.fetchWord (s : State) : Option Word :=
  if s.pc.toNat + 1 < memSize then some (wordOfBytes (s.readByte s.pc.toNat) (s.readByte (s.pc.toNat + 1)))
  else none

/-- The instruction is an `FX0A`. -/
def isKeyWait : Instr → Bool
  | .opFX0A _ => true
  | _ => false

/-- The word at `pc` is an `FX0A`. -/
def State.atKeyWait (s : State) : Bool :=
  match s.fetchWord with
  | none => false
  | some w =>
    match decodeWord w with
    | .ok i => isKeyWait i
    | .error _ => false

/-- While `keyBlocked` = 1 the word at `pc` is the pending `FX0A` (R204, R35). -/
def State.waitIntact (s : State) : Bool := !s.keyBlocked || s.atKeyWait

/-! ### The instruction step (R93), entered with `stepGate` = 1 -/

/-- Fetch, advance, decode, execute, `stepGate <- 0`; the checks in the order of R246. A key wait without
its `FX0A` stops (R204; assumption 6). -/
def instrStep (s : State) : Host.Outcome State Fault Refusal :=
  if s.waitIntact then
    match s.fetchWord with
    | none => .next (s.raise .memoryOutOfBounds)
    | some w =>
      match decodeWord w with
      | .ok i => onNext (exec i s.advancePc) fun t => t.setStepGate false
      | .error _ => .next (s.advancePc.raise .unknownInstruction)
  else .fault .keyWaitWithoutFX0A

/-! ### The pacer (R250 to R254) -/

/-- A gate of the pacer: `now >= t` and `(now - t) * RATE >= CLOCK_HZ` (R251, R252). -/
def gateOpen (p : Params) (rate stamp now : Nat) : Bool := stamp ≤ now && p.clockHz ≤ (now - stamp) * rate

/-- The instruction gate is open at this Poll (R251). -/
def State.instrGateOpen (s : State) : Bool := gateOpen s.params s.params.ips s.tInstr s.inputs.now

/-- The timer/frame gate is open at this Poll (R252). -/
def State.frameGateOpen (s : State) : Bool := gateOpen s.params s.params.fps s.tFrame s.inputs.now

/-- A timer counts down while greater than zero (R254). -/
def countDown (b : Byte) : Byte := if 0 < b.toNat then b - 1 else b

/-- The timer tick (R254). -/
def State.timerTick (s : State) : State := ((s.setDT (countDown s.DT)).setST (countDown s.ST)).strobePresent

/-- The instruction gate admits: `tInstr <- now; stepGate <- 1` (R251). -/
def State.admitInstr (s : State) : State := (s.setTInstr s.inputs.now).setStepGate true

/-- The first half of a Poll: one instruction step if the instruction gate is open (R253). -/
def instrPhase (s : State) : Host.Outcome State Fault Refusal :=
  if s.instrGateOpen then instrStep s.admitInstr else .next s

/-- The second half of a Poll: `tFrame <- now` and one timer tick if no fault is latched and the timer/frame
gate is open (R253, R247). -/
def framePhase (s : State) : State :=
  if s.fault.isNone && s.frameGateOpen then (s.setTFrame s.inputs.now).timerTick else s

/-- The environment's part of a Poll: its inputs are used up, and a Load is legal no more (R293). -/
def State.endPoll (s : State) : State :=
  { s with events := s.events.tail, lastNow := s.inputs.now, polls := s.polls + 1, loadOpen := false }

/-- The Poll event (R253). A halted unit admits nothing (R257). -/
def poll (s : State) : Host.Outcome State Fault Refusal :=
  if s.fault.isSome then .next s.endPoll
  else onNext (instrPhase s) fun t => (framePhase t).endPoll

end Sys2Proof.Machine
end

