-- ==== Sys2Proof/Machine/Boot.lean ====
section
/-! DEFINITION. The Reset and Load events (spec/70_reset_and_hazards.md R290 to R294), the unit's one
transition over the three events, and how a word is placed where the next Poll runs it. -/

namespace Sys2Proof.Machine

/-- The Reset event, applicable in any state (R290). The parameters "are not changed by it"; the
environment's own fields are not the unit's and go on (assumption 12). -/
def State.resetEvent (s : State) : State :=
  { State.resetWith s.params with
    events := s.events.tail, lastNow := s.lastNow, polls := s.polls, presents := s.presents }

/-- Copy bytes to memory from an address on. -/
def writeBytes (p : Params) : Nat → List Byte → Memory → Memory
  | _, [], m => m
  | a, b :: bs, m => writeBytes p (a + 1) bs (Memory.write p a b m)

/-- The environment's part of a Load: it is used up and legal no more (R293). -/
def State.endLoad (s : State) : State := { s with events := s.events.tail, loadOpen := false }

/-- The Load event (R293): all or nothing. -/
def loadEvent (rom : List Byte) (s : State) : Host.Outcome State Fault Refusal :=
  if s.loadOpen then
    if romFits s.params rom then
      .next (s.setMem (writeBytes s.params s.params.progStart rom s.mem)).endLoad
    else .next (s.raise .romTooLarge).endLoad
  else .refused .loadNotLegal

/-- One event: what the head of the environment's list says, a Poll with free inputs when the list is empty
(assumption 3). A configuration that breaks R9 is refused (assumption 7). -/
def runEvent (s : State) : Host.Outcome State Fault Refusal :=
  if s.params.wf then
    match s.events with
    | .reset :: _ => .next s.resetEvent
    | .load rom :: _ => loadEvent rom s
    | .poll _ :: _ => poll s
    | [] => poll s
  else .refused .parametersInvalid

/-! ### Placing an instruction where the next Poll runs it (assumption 18) -/

/-- The fetch address: `pc` where a word can be fetched, else `PROG_START` (or the last address a word can be
fetched from). -/
def State.placePc (s : State) : Word :=
  if s.pc.toNat + 1 < memSize then s.pc else BitVec.ofNat 16 (min s.params.progStart 0xFFE)

/-- The word stored at `pc`, high byte first. -/
def State.storeWordAtPc (s : State) (w : Word) : State :=
  s.setMem (Memory.write s.params (s.pc.toNat + 1) (lowByte w)
    (Memory.write s.params s.pc.toNat (highByte w) s.mem))

/-- The next event made a Poll with the instruction gate open: unchanged if it is one already, else the
same inputs with a later clock reading. -/
def State.presentPoll (s : State) : State :=
  let late : Inputs := { s.inputs with now := s.tInstr + s.params.clockHz }
  match s.events with
  | [] => if s.instrGateOpen then s else s.setEvents [.poll late]
  | .poll _ :: es => if s.instrGateOpen then s else s.setEvents (.poll late :: es)
  | .reset :: _ => s.setEvents (.poll late :: s.events)
  | .load _ :: _ => s.setEvents (.poll late :: s.events)

/-- A word placed so that the very next Poll fetches and runs it: no fault latched, no key wait pending
(unless the word is the `FX0A` waited in), the word at `pc`, and a Poll presented with the gate open. -/
def State.placeWord (s : State) (w : Word) : State :=
  let s1 := ((s.setFault none).setPc s.placePc).storeWordAtPc w
  (s1.setKeyBlocked (s1.keyBlocked && s1.atKeyWait)).presentPoll

end Sys2Proof.Machine
end

