-- ==== Sys2Proof/Machine/Step.lean ====
section
/-! DEFINITION. One step of the machine: one event of the environment (spec/92_eei_decisions.md D1). -/

namespace Sys2Proof.Machine

/-- One event: Reset, Load, or a Poll with at most one instruction step and then at most one timer tick
(R253, R290, R293). -/
def step (s : State) : Host.Outcome State Fault Refusal := runEvent s

/-- `s` with the instruction whose bits are `w` (numbered as spec/opcode_table.json numbers them, bits at and
above `nbits` zero) where the next step fetches it, and everything that step needs to fetch it
(assumption 18). -/
def State.withFetchWord (s : State) (nbits w : Nat) : State :=
  s.placeWord (BitVec.ofNat 16 (w % 2 ^ nbits))

end Sys2Proof.Machine
end

