-- ==== Sys2Proof/Safety.lean ====
section
/-! DEFINITION. The terms claims use: the elements of the state and what it means that one is unchanged,
what an instruction may write, the pixels of a sprite, and the invariant of a run. -/

namespace Sys2Proof

open Sys2Proof.Machine

/-- The elements of State a claim speaks about: R20's list, one register and one byte at a time, then the
model's own. -/
inductive Elem where
  | reg (r : Reg)
  | byte (a : Nat)
  | index
  | pc
  | stack
  | sp
  | DT
  | ST
  | display
  | keyBlocked
  | stepGate
  | tInstr
  | tFrame
  | fault
  | params
  /-- The environment's fields: `events`, `lastNow`, `polls`, `loadOpen`. -/
  | environment
  | presents
  deriving DecidableEq, Repr

/-- The element is the same in `t` as in `s`; a byte of memory by reading it. -/
def Elem.same (s t : State) : Elem → Prop
  | .reg r => t.reg r = s.reg r
  | .byte a => t.readByte a = s.readByte a
  | .index => t.I = s.I
  | .pc => t.pc = s.pc
  | .stack => t.stack = s.stack
  | .sp => t.sp = s.sp
  | .DT => t.DT = s.DT
  | .ST => t.ST = s.ST
  | .display => t.disp = s.disp
  | .keyBlocked => t.keyBlocked = s.keyBlocked
  | .stepGate => t.stepGate = s.stepGate
  | .tInstr => t.tInstr = s.tInstr
  | .tFrame => t.tFrame = s.tFrame
  | .fault => t.fault = s.fault
  | .params => t.params = s.params
  | .environment => t.events = s.events ∧ t.lastNow = s.lastNow ∧ t.polls = s.polls ∧ t.loadOpen = s.loadOpen
  | .presents => t.presents = s.presents

/-- Every element outside `touched` is the same in `t` as in `s`. -/
def Frame (touched : List Elem) (s t : State) : Prop := ∀ e : Elem, e ∉ touched → e.same s t

/-- What `raise` writes (R242). -/
def raised : List Elem := [.fault, .stepGate]

/-- The bytes at `I`, `I + 1`, .. `I + n - 1`: where the storing instructions store (R223, R224). -/
def bytesAtI (s : State) (n : Nat) : List Elem := (List.range n).map fun k => Elem.byte (s.effAddr k)

/-- What an instruction may write, from the "Writes" of R21 to R31 and the rules of files 40 to 45, besides
`fault` and `stepGate` for those that can raise (R241). -/
def Instr.writes (s : State) : Instr → List Elem
  | .op00E0 => [.display]
  | .op00EE => [.pc, .sp] ++ raised
  | .op1NNN _ | .opBNNN _ | .op3XNN _ _ | .op4XNN _ _ | .op5XY0 _ _ | .op9XY0 _ _ | .opEX9E _ | .opEXA1 _ => [.pc]
  | .op2NNN _ => [.pc, .sp, .stack] ++ raised
  | .op6XNN x _ | .op7XNN x _ | .op8XY0 x _ | .op8XY1 x _ | .op8XY2 x _ | .op8XY3 x _ | .opCXNN x _ | .opFX07 x =>
    [.reg x]
  | .op8XY4 x _ | .op8XY5 x _ | .op8XY6 x _ | .op8XY7 x _ | .op8XYE x _ => [.reg x, .reg VF]
  | .opANNN _ | .opFX29 _ => [.index]
  | .opFX1E _ => [.index, .reg VF]
  | .opDXYN _ _ _ => [.display, .reg VF] ++ raised
  | .opFX0A x => [.reg x, .pc, .keyBlocked]
  | .opFX15 _ => [.DT]
  | .opFX18 _ => [.ST]
  | .opFX33 _ => bytesAtI s 3 ++ raised
  | .opFX55 x => bytesAtI s (x.val + 1) ++ raised
  | .opFX65 x => (regsTo x).map Elem.reg ++ raised

/-- The grid has `DISP_H` rows of `DISP_W` pixels (R27). -/
abbrev displayShape (s : State) : Prop :=
  s.disp.length = s.params.dispH ∧ ∀ row ∈ s.disp, row.length = s.params.dispW

/-- A sprite of `rows` rows has a bit of 1 that is drawn (not clipped) on pixel (px, py) (R182, R183): row
`py - yPos` of it is the byte at `I + (py - yPos)`, most significant bit leftmost. -/
def spriteOn (s : State) (x y : Reg) (rows px py : Nat) : Bool :=
  decide (s.spriteX x ≤ px ∧ px < s.spriteX x + 8 ∧ px < s.params.dispW) &&
  decide (s.spriteY y ≤ py ∧ py < s.spriteY y + rows ∧ py < s.params.dispH) &&
  (s.readByte (s.effAddr (py - s.spriteY y))).getLsbD (7 - (px - s.spriteX x))

/-- Every row of the sprite that is inside the display has its byte inside memory (R182). -/
def spriteReadable (s : State) (y : Reg) (n : Nibble) : Prop :=
  ∀ i, i < n.toNat → s.spriteY y + i < s.params.dispH → s.effAddr i < memSize

/-- The next event is a Poll (an empty list is a Poll with free inputs). -/
def nextIsPoll (s : State) : Prop := s.events = [] ∨ ∃ i es, s.events = .poll i :: es

/-- The invariant of a run (R35 and what R24, R25, R29, R204 say of reachable states). -/
structure Inv (s : State) : Prop where
  /-- The configuration meets R9. -/
  config : s.params.wf
  /-- Memory is in its canonical form. -/
  memory : Memory.wf s.params s.mem
  /-- The stack has `STACK_CAP` entries and "depth never exceeds capacity" (R25, R35). -/
  stackSize : s.stack.length = s.params.stackCap ∧ s.sp ≤ s.params.stackCap
  /-- A pushed value is "at most 0x1000" (R121). -/
  stackValues : ∀ w ∈ s.stack, w.toNat ≤ 0x1000
  /-- The grid keeps its size (R27). -/
  display : displayShape s
  /-- "`stepGate` is 0 in every state between events" (R29). -/
  gate : s.stepGate = false
  /-- While `keyBlocked` = 1 the word at `pc` is an `FX0A` and no fault is latched (R35, R204). -/
  keyWait : s.keyBlocked = true → s.atKeyWait = true ∧ s.fault = none
  /-- Before the first Poll no wait is pending and nothing but a Load can have faulted (R293). -/
  beforeRun : s.loadOpen = true → s.keyBlocked = false ∧ s.fault = none
  /-- "The largest value `pc` can reach from reset is 0x10FE" (R24). -/
  pcReach : s.pc.toNat ≤ 0x10FE

/-- A safe run ends in no error: no fault is latched ("this state is never a successful end", R296). -/
def Safe (s : State) : Prop := s.fault = none

end Sys2Proof
end

