-- ==== Sys2Proof/Certificates/Slice0/Obligations.lean ====
section
/-! DEFINITION. The statements for the provers. Each says which rule of the spec it formalises; where a clause rests
on a decision the spec marks as its own, or on a choice of the model, the docstring says so. Unless a statement says
otherwise it holds for every state, reachable or not, and for every configuration. -/

open Sys2Proof Sys2Proof.Machine

/-! ### Control flow (spec/40_control_flow.md) -/

/-- R121, in every state: with an entry on the stack `00EE` pops it into `pc` and changes nothing else (the freed slot
keeps its bits); with none it raises `StackUnderflow` and changes nothing else. What raising writes is the spec's
decision D15, and that it is a next state is assumption 5; a depth past the stack's length, which R35 excludes, reads 0
by the model's choice, assumption 16. -/
def Obligations.ReturnPopsOrUnderflows : Prop :=
  (∀ s : State, 0 < s.sp → ∃ t, exec .op00EE s = .next t ∧ t.pc = s.stack.getD (s.sp - 1) 0 ∧
    t.sp = s.sp - 1 ∧ Frame [.pc, .sp] s t) ∧
  (∀ s : State, s.sp = 0 → ∃ t, exec .op00EE s = .next t ∧ t.fault = some .stackUnderflow ∧
    t.stepGate = false ∧ Frame [.fault, .stepGate] s t)

/-- R122: `1NNN` sets `pc` to NNN, zero-extended, and changes nothing else. -/
def Obligations.JumpSetsPc : Prop :=
  ∀ (s : State) (nnn : Imm12), ∃ t, exec (.op1NNN nnn) s = .next t ∧ t.pc.toNat = nnn.toNat ∧ Frame [.pc] s t

/-- R123: with room on the stack `2NNN` pushes `pc` (the call's address plus 2), other entries unchanged, and jumps to
NNN; with a full stack it raises `StackOverflow` and changes nothing else. What raising writes is the spec's decision
D15, and that it is a next state is assumption 5; that a depth above the capacity, which R35 excludes, counts as full
is assumption 15. The premise on the stack's length is an invariant (`Inv.stackSize`). -/
def Obligations.CallPushesOrOverflows : Prop :=
  (∀ (s : State) (nnn : Imm12), s.stack.length = s.params.stackCap → s.sp < s.params.stackCap →
    ∃ t, exec (.op2NNN nnn) s = .next t ∧ t.stack[s.sp]? = some s.pc ∧
      (∀ k, k ≠ s.sp → t.stack[k]? = s.stack[k]?) ∧ t.sp = s.sp + 1 ∧ t.pc.toNat = nnn.toNat ∧
      Frame [.pc, .sp, .stack] s t) ∧
  (∀ (s : State) (nnn : Imm12), s.params.stackCap ≤ s.sp → ∃ t, exec (.op2NNN nnn) s = .next t ∧
    t.fault = some .stackOverflow ∧ t.stepGate = false ∧ Frame [.fault, .stepGate] s t)

/-- R124: `BNNN` sets `pc` to NNN + `V[0]`, not reduced to 12 bits (the spec's decision D4), and changes nothing
else. -/
def Obligations.JumpWithOffset : Prop :=
  ∀ (s : State) (nnn : Imm12), ∃ t, exec (.opBNNN nnn) s = .next t ∧
    t.pc.toNat = nnn.toNat + (s.reg 0).toNat ∧ Frame [.pc] s t

/-- R125, R126, R127, R128: the compare-and-skip instructions add 2 to `pc`, modulo 65536, exactly when their
condition holds, and change nothing else. -/
def Obligations.SkipsCompareRegisters : Prop :=
  ∀ (s : State) (x y : Reg) (nn : Byte),
    (∃ t, exec (.op3XNN x nn) s = .next t ∧ Frame [.pc] s t ∧
      t.pc.toNat = (s.pc.toNat + if (s.reg x).toNat = nn.toNat then 2 else 0) % 65536) ∧
    (∃ t, exec (.op4XNN x nn) s = .next t ∧ Frame [.pc] s t ∧
      t.pc.toNat = (s.pc.toNat + if (s.reg x).toNat ≠ nn.toNat then 2 else 0) % 65536) ∧
    (∃ t, exec (.op5XY0 x y) s = .next t ∧ Frame [.pc] s t ∧
      t.pc.toNat = (s.pc.toNat + if (s.reg x).toNat = (s.reg y).toNat then 2 else 0) % 65536) ∧
    (∃ t, exec (.op9XY0 x y) s = .next t ∧ Frame [.pc] s t ∧
      t.pc.toNat = (s.pc.toNat + if (s.reg x).toNat ≠ (s.reg y).toNat then 2 else 0) % 65536)

/-- R129: a call with room on the stack and a later return. Between them anything may run that comes back to the call's
depth with the call's own slot unchanged, calls matched by returns among it (they leave their bits above that depth,
R121): the return leaves `pc` at the call's address plus 2 (the `pc` the call found) and `sp` as before the call. -/
def Obligations.CallThenReturnRestoresPc : Prop :=
  ∀ (s : State) (nnn : Imm12), s.stack.length = s.params.stackCap → s.sp < s.params.stackCap →
    ∃ t, exec (.op2NNN nnn) s = .next t ∧
      ∀ u : State, u.stack[s.sp]? = t.stack[s.sp]? → u.sp = t.sp →
        ∃ r, exec .op00EE u = .next r ∧ r.pc = s.pc ∧ r.sp = s.sp

/-! ### Immediate and index (spec/41_immediate_and_index.md) -/

/-- R140, R141: `6XNN` loads NN; `7XNN` adds NN modulo 256. Neither changes anything but its destination, so VF only
as X = 15. -/
def Obligations.ImmediateLoadAndAdd : Prop :=
  ∀ (s : State) (x : Reg) (nn : Byte),
    (∃ t, exec (.op6XNN x nn) s = .next t ∧ t.reg x = nn ∧ Frame [.reg x] s t) ∧
    (∃ t, exec (.op7XNN x nn) s = .next t ∧ (t.reg x).toNat = ((s.reg x).toNat + nn.toNat) % 256 ∧
      Frame [.reg x] s t)

/-- R142, R145: `ANNN` loads `I`; `FX29` points `I` at the glyph of `V[X]`'s low nibble, under R9's constraint on
`FONT_BASE`. Neither changes anything else. -/
def Obligations.IndexLoads : Prop :=
  (∀ (s : State) (nnn : Imm12), ∃ t, exec (.opANNN nnn) s = .next t ∧ t.I.toNat = nnn.toNat ∧
    Frame [.index] s t) ∧
  (∀ (s : State) (x : Reg), s.params.fontBase + 80 ≤ 4096 → ∃ t, exec (.opFX29 x) s = .next t ∧
    t.I.toNat = s.params.fontBase + (s.reg x).toNat % 16 * 5 ∧ Frame [.index] s t)

/-- R143 (the input `rnd` by the spec's decision D14): `CXNN` leaves bit by bit the AND of this Poll's random byte
and NN, whatever that byte is, and changes nothing else. -/
def Obligations.RandomIsMasked : Prop :=
  ∀ (s : State) (x : Reg) (nn : Byte), ∃ t, exec (.opCXNN x nn) s = .next t ∧
    (∀ b, (t.reg x).getLsbD b = (s.inputs.rnd.getLsbD b && nn.getLsbD b)) ∧ Frame [.reg x] s t

/-- R144 (threshold test by the spec's decision D8): `FX1E` adds `V[X]` to `I` modulo 65536 and writes VF = 1 if the
new `I` exceeds the threshold, else 0; X = 15 adds the old VF. Nothing else changes. -/
def Obligations.IndexAddSetsOverflowFlag : Prop :=
  ∀ (s : State) (x : Reg), ∃ t, exec (.opFX1E x) s = .next t ∧
    t.I.toNat = (s.I.toNat + (s.reg x).toNat) % 65536 ∧
    (t.reg VF).toNat = (if s.params.iOvfThreshold < (s.I.toNat + (s.reg x).toNat) % 65536 then 1 else 0) ∧
    Frame [.index, .reg VF] s t

/-! ### ALU (spec/42_alu_register.md) -/

/-- R161 to R164, bit by bit: copy, OR, AND, XOR; only `V[X]` changes, so VF only as X = 15. -/
def Obligations.LogicLeavesFlagAlone : Prop :=
  ∀ (s : State) (x y : Reg),
    (∃ t, exec (.op8XY0 x y) s = .next t ∧ t.reg x = s.reg y ∧ Frame [.reg x] s t) ∧
    (∃ t, exec (.op8XY1 x y) s = .next t ∧ Frame [.reg x] s t ∧
      ∀ b, (t.reg x).getLsbD b = ((s.reg x).getLsbD b || (s.reg y).getLsbD b)) ∧
    (∃ t, exec (.op8XY2 x y) s = .next t ∧ Frame [.reg x] s t ∧
      ∀ b, (t.reg x).getLsbD b = ((s.reg x).getLsbD b && (s.reg y).getLsbD b)) ∧
    (∃ t, exec (.op8XY3 x y) s = .next t ∧ Frame [.reg x] s t ∧
      ∀ b, (t.reg x).getLsbD b = ((s.reg x).getLsbD b != (s.reg y).getLsbD b))

/-- R165, every X and Y: `V[X]` is the sum modulo 256 of the registers before VF is written; VF is the carry unless
X = 15, when the result replaces it. Nothing else changes. The forms with X or Y = 15 are the `8XY4` row of R171, which
rests on the spec's decision D3. -/
def Obligations.AddSetsCarry : Prop :=
  ∀ (s : State) (x y : Reg), ∃ t, exec (.op8XY4 x y) s = .next t ∧
    (t.reg x).toNat = ((s.reg x).toNat + (s.reg y).toNat) % 256 ∧
    (x ≠ VF → (t.reg VF).toNat = if 255 < (s.reg x).toNat + (s.reg y).toNat then 1 else 0) ∧
    Frame [.reg x, .reg VF] s t

/-- R166, R168 for X and Y other than 15: the difference modulo 256, and VF = 1 exactly when the minuend is strictly
greater. Nothing else changes. The forms with X or Y = 15 are `FlagAliasTable`. -/
def Obligations.SubtractSetsNoBorrow : Prop :=
  ∀ (s : State) (x y : Reg), x ≠ VF → y ≠ VF →
    (∃ t, exec (.op8XY5 x y) s = .next t ∧
      (t.reg x).toNat = ((s.reg x).toNat + 256 - (s.reg y).toNat) % 256 ∧
      (t.reg VF).toNat = (if (s.reg y).toNat < (s.reg x).toNat then 1 else 0) ∧ Frame [.reg x, .reg VF] s t) ∧
    (∃ t, exec (.op8XY7 x y) s = .next t ∧
      (t.reg x).toNat = ((s.reg y).toNat + 256 - (s.reg x).toNat) % 256 ∧
      (t.reg VF).toNat = (if (s.reg x).toNat < (s.reg y).toNat then 1 else 0) ∧ Frame [.reg x, .reg VF] s t)

/-- R167, R169, every X and Y and every setting of the two quirk parameters (decisions D3, D9, D10): with `a` the
operand (`V[Y]` when `SHIFT_USES_VY`, else `V[X]`), `8XY6` leaves a / 2 and VF = a mod 2, `8XYE` leaves 2a mod 256 and
VF = the high bit, raw or as 0 or 1; with X = 15 the flag is shifted in turn. Nothing else changes. -/
def Obligations.ShiftsByOne : Prop :=
  ∀ (s : State) (x y : Reg) (a : Nat),
    a = (if s.params.shiftUsesVy then s.reg y else s.reg x).toNat →
    (∃ t, exec (.op8XY6 x y) s = .next t ∧ Frame [.reg x, .reg VF] s t ∧
      (x ≠ VF → (t.reg x).toNat = a / 2 ∧ (t.reg VF).toNat = a % 2) ∧ (x = VF → (t.reg VF).toNat = 0)) ∧
    (∃ t, exec (.op8XYE x y) s = .next t ∧ Frame [.reg x, .reg VF] s t ∧
      (x ≠ VF → (t.reg x).toNat = 2 * a % 256 ∧
        (t.reg VF).toNat = (if s.params.shlVfRaw then a / 128 * 128 else a / 128)) ∧
      (x = VF → (t.reg VF).toNat = if s.params.shlVfRaw then 0 else a / 128 * 2))

/-- R171, columns two to four (the spec's decision D3 alone; the shifts are in `ShiftsByOne`, `8XY4` in
`AddSetsCarry`): the subtractions when X or Y is register 15. Nothing but `V[X]` and VF changes. -/
def Obligations.FlagAliasTable : Prop :=
  ∀ (s : State) (r : Reg), r ≠ VF →
    (∃ t, exec (.op8XY5 r VF) s = .next t ∧ Frame [.reg r, .reg VF] s t ∧
      (t.reg VF).toNat = (if (s.reg VF).toNat < (s.reg r).toNat then 1 else 0) ∧
      (t.reg r).toNat = ((s.reg r).toNat + 256 - (t.reg VF).toNat) % 256) ∧
    (∃ t, exec (.op8XY5 VF r) s = .next t ∧ Frame [.reg VF] s t ∧
      (t.reg VF).toNat =
        ((if (s.reg r).toNat < (s.reg VF).toNat then 1 else 0) + 256 - (s.reg r).toNat) % 256) ∧
    (∃ t, exec (.op8XY5 VF VF) s = .next t ∧ Frame [.reg VF] s t ∧ (t.reg VF).toNat = 0) ∧
    (∃ t, exec (.op8XY7 r VF) s = .next t ∧ Frame [.reg r, .reg VF] s t ∧
      (t.reg VF).toNat = (if (s.reg r).toNat < (s.reg VF).toNat then 1 else 0) ∧
      (t.reg r).toNat = ((t.reg VF).toNat + 256 - (s.reg r).toNat) % 256) ∧
    (∃ t, exec (.op8XY7 VF r) s = .next t ∧ Frame [.reg VF] s t ∧
      (t.reg VF).toNat =
        ((s.reg r).toNat + 256 - (if (s.reg VF).toNat < (s.reg r).toNat then 1 else 0)) % 256) ∧
    (∃ t, exec (.op8XY7 VF VF) s = .next t ∧ Frame [.reg VF] s t ∧ (t.reg VF).toNat = 0)

/-! ### Display (spec/43_display.md) -/

/-- R181: `00E0` turns every pixel off and changes nothing else. -/
def Obligations.ClearTurnsEveryPixelOff : Prop :=
  ∀ s : State, ∃ t, exec .op00E0 s = .next t ∧ (∀ x y, t.pixel x y = false) ∧ displayShape t ∧
    Frame [.display] s t

/-- R182 to R185: when every row inside the display can be read, `DXYN` inverts exactly the pixels under an unclipped
sprite bit of 1, positions taken modulo the display's size from the registers before VF is reset (decision D34 for X or
Y = 15); VF becomes 1 exactly when one of those pixels was on, else 0; nothing else changes, `I` among it (decision
D23). The premise on the grid is an invariant (`Inv.display`). -/
def Obligations.DrawTogglesSpritePixels : Prop :=
  ∀ (s : State) (x y : Reg) (n : Nibble), displayShape s → spriteReadable s y n →
    ∃ t, exec (.opDXYN x y n) s = .next t ∧
      (∀ px py, t.pixel px py = (s.pixel px py != spriteOn s x y n.toNat px py)) ∧ displayShape t ∧
      ((∃ px py, s.pixel px py = true ∧ spriteOn s x y n.toNat px py = true) → t.reg VF = 1) ∧
      ((∀ px py, ¬ (s.pixel px py = true ∧ spriteOn s x y n.toNat px py = true)) → t.reg VF = 0) ∧
      Frame [.display, .reg VF] s t

/-- R182, R243 (decision D16): when row k is the first row inside the display whose byte is above 0xFFF, `DXYN` raises
`MemoryOutOfBounds` with the rows before k drawn and VF as computed so far, and changes nothing else. -/
def Obligations.DrawFaultKeepsEarlierRows : Prop :=
  ∀ (s : State) (x y : Reg) (n : Nibble) (k : Nat), displayShape s → k < n.toNat →
    s.spriteY y + k < s.params.dispH → memSize ≤ s.effAddr k → (∀ j, j < k → s.effAddr j < memSize) →
    ∃ t, exec (.opDXYN x y n) s = .next t ∧
      (∀ px py, t.pixel px py = (s.pixel px py != spriteOn s x y k px py)) ∧
      ((∃ px py, s.pixel px py = true ∧ spriteOn s x y k px py = true) → t.reg VF = 1) ∧
      ((∀ px py, ¬ (s.pixel px py = true ∧ spriteOn s x y k px py = true)) → t.reg VF = 0) ∧
      t.fault = some .memoryOutOfBounds ∧ t.stepGate = false ∧
      Frame [.display, .reg VF, .fault, .stepGate] s t

/-- R187: the same `DXYN` twice, position registers not VF, no row unreadable: the display is as before the first,
and the second leaves VF = 1 exactly when the first turned at least one pixel on. -/
def Obligations.DrawTwiceRestoresDisplay : Prop :=
  ∀ (s : State) (x y : Reg) (n : Nibble), displayShape s → spriteReadable s y n → x ≠ VF → y ≠ VF →
    ∃ t u, exec (.opDXYN x y n) s = .next t ∧ exec (.opDXYN x y n) t = .next u ∧ u.disp = s.disp ∧
      (u.reg VF = 1 ↔ ∃ px py, px < s.params.dispW ∧ py < s.params.dispH ∧ s.pixel px py = false ∧
        t.pixel px py = true)

/-! ### Keys (spec/44_key_input.md) -/

/-- R201, R202 (the spec's design, decision D12): `EX9E` skips when the key of `V[X]`'s low nibble is down, `EXA1`
when it is not; nothing but `pc` changes. -/
def Obligations.KeySkipsTestKeyDown : Prop :=
  ∀ (s : State) (x : Reg),
    (∃ t, exec (.opEX9E x) s = .next t ∧ Frame [.pc] s t ∧ t.pc.toNat =
      (s.pc.toNat + if s.inputs.keyDown.getLsbD ((s.reg x).toNat % 16) then 2 else 0) % 65536) ∧
    (∃ t, exec (.opEXA1 x) s = .next t ∧ Frame [.pc] s t ∧ t.pc.toNat =
      (s.pc.toNat + if s.inputs.keyDown.getLsbD ((s.reg x).toNat % 16) then 0 else 2) % 65536)

/-- R203 (the spec's design, decision D13): `FX0A` in Idle enters the wait and steps back, whatever the keys show;
in the wait it resumes with a reported key, or steps back and waits on. -/
def Obligations.KeyWaitEntersHoldsAndResumes : Prop :=
  (∀ (s : State) (x : Reg), s.keyBlocked = false → ∃ t, exec (.opFX0A x) s = .next t ∧ t.keyBlocked = true ∧
    t.pc + 2 = s.pc ∧ Frame [.keyBlocked, .pc] s t) ∧
  (∀ (s : State) (x : Reg), s.keyBlocked = true → s.inputs.keyValid = true → ∃ t, exec (.opFX0A x) s = .next t ∧
    (t.reg x).toNat = s.inputs.keyCode.toNat ∧ t.keyBlocked = false ∧ Frame [.reg x, .keyBlocked] s t) ∧
  (∀ (s : State) (x : Reg), s.keyBlocked = true → s.inputs.keyValid = false → ∃ t, exec (.opFX0A x) s = .next t ∧
    t.pc + 2 = s.pc ∧ Frame [.pc] s t)

/-- R204, R205: while a wait is pending and no key is reported, a Poll changes nothing but the timers, the gates'
stamps, the strobe and the environment's part; `stepGate` is 0 between events, so before it too (`Inv`). -/
def Obligations.KeyWaitSuspendsExecution : Prop :=
  ∀ s t : State, Inv s → s.keyBlocked = true → nextIsPoll s → s.inputs.keyValid = false → step s = .next t →
    Frame [.DT, .ST, .tInstr, .tFrame, .presents, .environment] s t

/-! ### Timers and transfers (spec/45_timers_and_memory.md) -/

/-- R220, R221, R222: `FX07` reads `DT`, `FX15` writes it, `FX18` writes `ST`, and `sound_on` is 1 exactly when
the value written is above 0. Nothing else changes: no gate is realigned. -/
def Obligations.TimerAccess : Prop :=
  ∀ (s : State) (x : Reg),
    (∃ t, exec (.opFX07 x) s = .next t ∧ t.reg x = s.DT ∧ Frame [.reg x] s t) ∧
    (∃ t, exec (.opFX15 x) s = .next t ∧ t.DT = s.reg x ∧ Frame [.DT] s t) ∧
    (∃ t, exec (.opFX18 x) s = .next t ∧ t.ST = s.reg x ∧ (t.soundOn = true ↔ 0 < (s.reg x).toNat) ∧
      Frame [.ST] s t)

/-- R223 in range: `FX33` stores at `I`, `I + 1`, `I + 2` three digits below 10 that spell `V[X]`, and changes
nothing else (`I` unchanged: decision D23). The premise on memory is an invariant (`Inv.memory`). -/
def Obligations.BcdStoresDecimalDigits : Prop :=
  ∀ (s : State) (x : Reg), Memory.wf s.params s.mem → s.effAddr 2 < memSize →
    ∃ t, exec (.opFX33 x) s = .next t ∧
      (s.reg x).toNat = (t.readByte (s.effAddr 0)).toNat * 100 + (t.readByte (s.effAddr 1)).toNat * 10 +
        (t.readByte (s.effAddr 2)).toNat ∧
      (∀ k, k < 3 → (t.readByte (s.effAddr k)).toNat < 10) ∧ Frame (bytesAtI s 3) s t

/-- R224 in range: `FX55` stores `V[j]` at `I + j` for j = 0..X and changes nothing else (`I` unchanged: decision
D23). -/
def Obligations.DumpStoresRegisters : Prop :=
  ∀ (s : State) (x : Reg), Memory.wf s.params s.mem → s.effAddr x.val < memSize →
    ∃ t, exec (.opFX55 x) s = .next t ∧ (∀ j : Reg, j ≤ x → t.readByte (s.effAddr j.val) = s.reg j) ∧
      Frame (bytesAtI s (x.val + 1)) s t

/-- R225 in range: `FX65` loads `V[j]` from `I + j` for j = 0..X and changes nothing else (`I` unchanged: decision
D23). -/
def Obligations.LoadReadsRegisters : Prop :=
  ∀ (s : State) (x : Reg), s.effAddr x.val < memSize →
    ∃ t, exec (.opFX65 x) s = .next t ∧ (∀ j : Reg, j ≤ x → t.reg j = s.readByte (s.effAddr j.val)) ∧
      Frame ((regsTo x).map Elem.reg) s t

/-- R223, R224, R225, R243 out of range (decision D16): `FX33`, `FX55`, `FX65` raise `MemoryOutOfBounds`; the bytes or
registers whose address is in range are written, nothing else is. -/
def Obligations.TransferFaultKeepsEarlierWrites : Prop :=
  ∀ (s : State) (x : Reg), Memory.wf s.params s.mem →
    (memSize ≤ s.effAddr 2 → ∃ t, exec (.opFX33 x) s = .next t ∧ t.fault = some .memoryOutOfBounds ∧
      t.stepGate = false ∧
      (s.effAddr 0 < memSize → (t.readByte (s.effAddr 0)).toNat = (s.reg x).toNat / 100) ∧
      (s.effAddr 1 < memSize → (t.readByte (s.effAddr 1)).toNat = (s.reg x).toNat / 10 % 10) ∧
      Frame (bytesAtI s 3 ++ raised) s t) ∧
    (memSize ≤ s.effAddr x.val → ∃ t, exec (.opFX55 x) s = .next t ∧ t.fault = some .memoryOutOfBounds ∧
      t.stepGate = false ∧
      (∀ j : Reg, j ≤ x → s.effAddr j.val < memSize → t.readByte (s.effAddr j.val) = s.reg j) ∧
      Frame (bytesAtI s (x.val + 1) ++ raised) s t) ∧
    (memSize ≤ s.effAddr x.val → ∃ t, exec (.opFX65 x) s = .next t ∧ t.fault = some .memoryOutOfBounds ∧
      t.stepGate = false ∧
      (∀ j : Reg, j ≤ x → t.reg j = if s.effAddr j.val < memSize then s.readByte (s.effAddr j.val) else s.reg j) ∧
      Frame ((regsTo x).map Elem.reg ++ raised) s t)

/-- R226: `FX55` in range, then `FX65` with the same X from any state with the same `I` and the same bytes at
`I .. I + X`, restores `V[0]` to `V[X]`. -/
def Obligations.DumpThenLoadRestoresRegisters : Prop :=
  ∀ (s : State) (x : Reg), Memory.wf s.params s.mem → s.effAddr x.val < memSize →
    ∃ t, exec (.opFX55 x) s = .next t ∧
      ∀ u : State, u.I = t.I → (∀ j : Reg, j ≤ x → u.readByte (t.effAddr j.val) = t.readByte (t.effAddr j.val)) →
        ∃ r, exec (.opFX65 x) u = .next r ∧ ∀ j : Reg, j ≤ x → r.reg j = s.reg j

/-- R74 (decision D24): a store is seen by the very next fetch, whatever `I`. After `FX55` or `FX33` in range, each half
of the word fetched at `pc`, high byte first, is the byte the store put at its address, and the byte memory held
before where the store put none. -/
def Obligations.StoreIsSeenByNextFetch : Prop :=
  ∀ (s : State) (x : Reg), Memory.wf s.params s.mem → s.pc.toNat + 1 < memSize →
    (s.effAddr x.val < memSize → ∃ t w, exec (.opFX55 x) s = .next t ∧ t.pc = s.pc ∧ t.fetchWord = some w ∧
      (∀ j : Reg, j ≤ x → s.effAddr j.val = s.pc.toNat → w.toNat / 256 = (s.reg j).toNat) ∧
      (∀ j : Reg, j ≤ x → s.effAddr j.val = s.pc.toNat + 1 → w.toNat % 256 = (s.reg j).toNat) ∧
      ((∀ j : Reg, j ≤ x → s.effAddr j.val ≠ s.pc.toNat) → w.toNat / 256 = (s.readByte s.pc.toNat).toNat) ∧
      ((∀ j : Reg, j ≤ x → s.effAddr j.val ≠ s.pc.toNat + 1) →
        w.toNat % 256 = (s.readByte (s.pc.toNat + 1)).toNat)) ∧
    (s.effAddr 2 < memSize → ∃ t w, exec (.opFX33 x) s = .next t ∧ t.pc = s.pc ∧ t.fetchWord = some w ∧
      (∀ k, k < 3 → s.effAddr k = s.pc.toNat → w.toNat / 256 = (s.reg x).toNat / 10 ^ (2 - k) % 10) ∧
      (∀ k, k < 3 → s.effAddr k = s.pc.toNat + 1 → w.toNat % 256 = (s.reg x).toNat / 10 ^ (2 - k) % 10) ∧
      ((∀ k, k < 3 → s.effAddr k ≠ s.pc.toNat) → w.toNat / 256 = (s.readByte s.pc.toNat).toNat) ∧
      ((∀ k, k < 3 → s.effAddr k ≠ s.pc.toNat + 1) → w.toNat % 256 = (s.readByte (s.pc.toNat + 1)).toNat))

/-! ### Whole-machine rules over every instruction -/

/-- R21 to R28, R60, R241: every instruction writes only the elements its rule names (`Instr.writes`), every byte of
memory told apart. -/
def Obligations.InstructionWritesOnlyItsElements : Prop :=
  ∀ (i : Instr) (s t : State), exec i s = .next t → Frame (i.writes s) s t

/-- R22: VF changes only by an instruction that writes a flag or names VF as its destination (`FX65` with X = 15
among them). -/
def Obligations.FlagWrittenOnlyByNamedInstructions : Prop :=
  ∀ (i : Instr) (s t : State), exec i s = .next t → t.reg VF ≠ s.reg VF →
    (∃ x y, i = .op8XY4 x y ∨ i = .op8XY5 x y ∨ i = .op8XY6 x y ∨ i = .op8XY7 x y ∨ i = .op8XYE x y) ∨
    (∃ x, i = .opFX1E x) ∨ (∃ x y n, i = .opDXYN x y n) ∨
    (∃ nn, i = .op6XNN VF nn ∨ i = .op7XNN VF nn ∨ i = .opCXNN VF nn) ∨
    (∃ y, i = .op8XY0 VF y ∨ i = .op8XY1 VF y ∨ i = .op8XY2 VF y ∨ i = .op8XY3 VF y) ∨
    i = .opFX07 VF ∨ i = .opFX0A VF ∨ i = .opFX65 VF

/-- R60, R70, R25, R27, R28, R26: memory is written only by `FX33` and `FX55`, the call stack only by `2NNN` and
`00EE`, the display only by `00E0` and `DXYN`, `keyBlocked` only by `FX0A`, `DT` only by `FX15`, `ST` only by `FX18`,
`I` only by `ANNN`, `FX1E` and `FX29`. -/
def Obligations.StorageWrittenOnlyByItsInstructions : Prop :=
  ∀ (i : Instr) (s t : State), exec i s = .next t →
    (t.mem ≠ s.mem → ∃ x, i = .opFX33 x ∨ i = .opFX55 x) ∧
    (t.stack ≠ s.stack ∨ t.sp ≠ s.sp → i = .op00EE ∨ ∃ nnn, i = .op2NNN nnn) ∧
    (t.disp ≠ s.disp → i = .op00E0 ∨ ∃ x y n, i = .opDXYN x y n) ∧
    (t.keyBlocked ≠ s.keyBlocked → ∃ x, i = .opFX0A x) ∧
    (t.DT ≠ s.DT → ∃ x, i = .opFX15 x) ∧ (t.ST ≠ s.ST → ∃ x, i = .opFX18 x) ∧
    (t.I ≠ s.I → (∃ nnn, i = .opANNN nnn) ∨ ∃ x, i = .opFX1E x ∨ i = .opFX29 x)

/-- R241: an instruction that leaves a safe state unsafe is `2NNN` with `StackOverflow`, `00EE` with
`StackUnderflow`, or `DXYN`, `FX33`, `FX55`, `FX65` with `MemoryOutOfBounds`; no other instruction raises anything. -/
def Obligations.OnlyTheseInstructionsRaise : Prop :=
  ∀ (i : Instr) (s t : State), exec i s = .next t → Safe s → ¬ Safe t →
    (t.fault = some .stackOverflow ∧ ∃ nnn, i = .op2NNN nnn) ∨
    (t.fault = some .stackUnderflow ∧ i = .op00EE) ∨
    (t.fault = some .memoryOutOfBounds ∧
      ((∃ x y n, i = .opDXYN x y n) ∨ ∃ x, i = .opFX33 x ∨ i = .opFX55 x ∨ i = .opFX65 x))

/-- R47 (decision D2): an instruction that does not read an input does not depend on it. Two runs of one instruction
that differ only in the Poll's inputs, and agree on `rnd` for `CXNN`, on `key_down` for `EX9E` and `EXA1` and on
`key_valid` and `key_code` for `FX0A`, end in states that differ only in those inputs. -/
def Obligations.UnreadInputsDoNotMatter : Prop :=
  ∀ (i : Instr) (s : State) (a b : Inputs) (es : List Event),
    (∀ x nn, i = .opCXNN x nn → a.rnd = b.rnd) →
    (∀ x, i = .opEX9E x ∨ i = .opEXA1 x → a.keyDown = b.keyDown) →
    (∀ x, i = .opFX0A x → a.keyValid = b.keyValid ∧ a.keyCode = b.keyCode) →
    ∃ t u, exec i (s.setEvents (.poll a :: es)) = .next t ∧
      exec i (s.setEvents (.poll b :: es)) = .next u ∧ u = t.setEvents (.poll b :: es)

/-! ### Memory and fetch (spec/20_memory.md) -/

/-- R62, R64 (the bound on the fetch by decision D5): the word at `pc` is two bytes, the one at the lower address in
bits 15 to 8, for any `pc`, even or odd; there is none when `pc + 1 > 0xFFF`. -/
def Obligations.FetchIsBigEndian : Prop :=
  ∀ s : State,
    (s.pc.toNat + 1 ≤ 0xFFF → ∃ w, s.fetchWord = some w ∧
      w.toNat = (s.readByte s.pc.toNat).toNat * 256 + (s.readByte (s.pc.toNat + 1)).toNat) ∧
    (0xFFF < s.pc.toNat + 1 → s.fetchWord = none)

/-- The model's canonical form of memory (assumption 14): two canonical memories that read the same at every address
are the same list, so comparing states compares memories. -/
def Obligations.EqualReadsAreEqualMemories : Prop :=
  ∀ (p : Params) (m m' : Memory), Memory.wf p m → Memory.wf p m' →
    (∀ a, Memory.read p m a = Memory.read p m' a) → m = m'

/-- The model's canonical form (assumption 14): every step keeps it, from every state that has it. -/
def Obligations.StepKeepsMemoryCanonical : Prop :=
  ∀ s t : State, Memory.wf s.params s.mem → step s = .next t → Memory.wf t.params t.mem

/-! ### Decoding (spec/30_encoding.md) -/

/-- R100 and R91: decoding the word of an instruction gives it back, for every instruction and every operand. -/
def Obligations.DecodeInvertsEncode : Prop :=
  ∀ i : Instr, i.wf → decodeWord (encode i) = .ok i ∧
    ∀ rest, decode (encodeBytes i ++ rest) = .ok (i, rest)

/-- R94, R99: encoding a decoded word gives it back, except that classes 0x5 and 0x9 forget the ignored field N. -/
def Obligations.EncodeInvertsDecode : Prop :=
  ∀ (w : Word) (i : Instr), decodeWord w = .ok i →
    encode i = if fieldClass w = 0x5 ∨ fieldClass w = 0x9 then w &&& 0xFFF0 else w

/-- R100: "a word `w` selects the row when `(w AND mask) = match`". A word decodes to an instruction exactly when its
row selects the word, and every row that selects a word is the row of the instruction it decodes to. -/
def Obligations.DecodeFollowsOpcodeMap : Prop :=
  (∀ (w : Word) (i : Instr), decodeWord w = .ok i → i.row ∈ opcodeMap ∧ i.row.selects w = true) ∧
  (∀ (w : Word) (r : OpcodeRow), r ∈ opcodeMap → r.selects w = true →
    ∃ i, decodeWord w = .ok i ∧ i.row = r)

/-- R101, the unknown space: a word is rejected exactly when it lies in one of the table's four classes. -/
def Obligations.UnknownWordsAreExactly : Prop :=
  ∀ w : Word, decodeWord w = .error (.unknownInstruction w) ↔
    (w.toNat < 0x1000 ∧ w.toNat ≠ 0x00E0 ∧ w.toNat ≠ 0x00EE) ∨
    (w.toNat / 0x1000 = 0x8 ∧ w.toNat % 0x10 ∈ [0x8, 0x9, 0xA, 0xB, 0xC, 0xD, 0xF]) ∨
    (w.toNat / 0x1000 = 0xE ∧ w.toNat % 0x100 ∉ [0x9E, 0xA1]) ∨
    (w.toNat / 0x1000 = 0xF ∧
      w.toNat % 0x100 ∉ [0x07, 0x0A, 0x15, 0x18, 0x1E, 0x29, 0x33, 0x55, 0x65])

/-- R62, R100: sample words written out from the map decode to the instructions they stand for, one a family, with
N ignored in class 0x5 and class 0x0 matched on the whole word. -/
def Obligations.SampleWordsDecode : Prop :=
  decodeWord 0x00EE = .ok .op00EE ∧ decodeWord 0x2ABC = .ok (.op2NNN 0xABC) ∧
  decodeWord 0x5127 = .ok (.op5XY0 1 2) ∧ decodeWord 0x7A05 = .ok (.op7XNN 10 0x05) ∧
  decodeWord 0x8126 = .ok (.op8XY6 1 2) ∧ decodeWord 0xD125 = .ok (.opDXYN 1 2 5) ∧
  decodeWord 0xE19E = .ok (.opEX9E 1) ∧ decodeWord 0xF365 = .ok (.opFX65 3) ∧
  decodeWord 0x01E0 = .error (.unknownInstruction 0x01E0)

/-! ### The step, errors and the pacer (spec/60_exceptions.md) -/

/-- R93: in a Poll whose instruction gate is open, with no fault latched and no broken key wait, the step runs the
instruction the two bytes at `pc` decode to: `exec` of it at the state with the gate's stamp and `stepGate` set and
`pc` advanced by 2, then `stepGate <- 0`, the second half of the Poll, and the environment's part. -/
def Obligations.StepRunsDecodedInstruction : Prop :=
  ∀ (s : State) (i : Instr) (rest : List Byte), s.params.wf → nextIsPoll s → s.fault = none →
    s.instrGateOpen = true → s.waitIntact = true → s.pc.toNat + 1 < memSize → i.wf →
    decode (s.readByte s.pc.toNat :: s.readByte (s.pc.toNat + 1) :: rest) = .ok (i, rest) →
    ∃ t, exec i (((s.setTInstr s.inputs.now).setStepGate true).setPc (s.pc + 2)) = .next t ∧
      step s = .next ((framePhase (t.setStepGate false)).endPoll)

/-- R101, R243, R247 (the state at a fault by decision D16): a Poll whose gate is open and whose word at `pc` selects
nothing latches `UnknownInstruction` with `pc` past the word; the timer tick of the same Poll is not done. -/
def Obligations.UnknownWordHalts : Prop :=
  ∀ (s : State) (w : Word), s.params.wf → nextIsPoll s → s.fault = none → s.keyBlocked = false →
    s.instrGateOpen = true → s.fetchWord = some w → decodeWord w = .error (.unknownInstruction w) →
    ∃ t, step s = .next t ∧ t.fault = some .unknownInstruction ∧ t.pc = s.pc + 2 ∧ t.tInstr = s.inputs.now ∧
      t.stepGate = false ∧ Frame [.fault, .pc, .tInstr, .stepGate, .environment] s t

/-- R64, R243 (decisions D5, D16): a Poll whose gate is open and whose `pc + 1` is above 0xFFF latches
`MemoryOutOfBounds`; `pc` still holds the address that could not be fetched. -/
def Obligations.FetchOutOfRangeHalts : Prop :=
  ∀ s : State, s.params.wf → nextIsPoll s → s.fault = none → s.keyBlocked = false → s.instrGateOpen = true →
    0xFFF < s.pc.toNat + 1 →
    ∃ t, step s = .next t ∧ t.fault = some .memoryOutOfBounds ∧ t.tInstr = s.inputs.now ∧
      t.stepGate = false ∧ Frame [.fault, .tInstr, .stepGate, .environment] s t

/-- R242, R240 (codes and latch by decision D15): raising a kind latches its code, clears `stepGate` and writes
nothing else. -/
def Obligations.RaiseLatchesItsCode : Prop :=
  ∀ (s : State) (k : ErrorKind), (s.raise k).stepGate = false ∧ Frame [.fault, .stepGate] s (s.raise k) ∧
    (s.raise k).faultOut.toNat =
      match k with
      | .stackOverflow => 1
      | .stackUnderflow => 2
      | .memoryOutOfBounds => 3
      | .unknownInstruction => 4
      | .romTooLarge => 5

/-- R257 (decisions D15, D32): a Poll of a halted unit changes nothing but the environment's part: no instruction, no
tick, no strobe. -/
def Obligations.HaltedUnitStandsStill : Prop :=
  ∀ (s : State) (k : ErrorKind), s.params.wf → nextIsPoll s → s.fault = some k →
    ∃ t, step s = .next t ∧ Frame [.environment] s t

/-- R31, R244: "Once `fault` is not 0 it stays until reset and the unit executes nothing". From a state of a run with
a fault latched, a step that is not a Reset changes nothing but the environment's part. -/
def Obligations.OnlyResetClearsFault : Prop :=
  ∀ s t : State, Inv s → s.fault ≠ none → step s = .next t → (∀ es, s.events ≠ .reset :: es) →
    t.fault = s.fault ∧ Frame [.environment] s t

/-- R254: a timer tick takes 1 from each timer that is above zero, leaves a timer at zero, raises `present` once, and
writes nothing else. -/
def Obligations.TimerTickCountsDown : Prop :=
  ∀ s : State, s.timerTick.DT.toNat = s.DT.toNat - 1 ∧ s.timerTick.ST.toNat = s.ST.toNat - 1 ∧
    s.timerTick.presents = s.presents + 1 ∧ Frame [.DT, .ST, .presents] s s.timerTick

/-- R251, R252, R253, R247 (decision D18): in a Poll of a unit that is not halted each gate that is open by its own
arithmetic stamps `now`, and each that is not keeps its stamp; a fault in the instruction step cancels the tick, and
`present` is raised once exactly when the tick is done. -/
def Obligations.GatesAdmitByTheirRates : Prop :=
  ∀ s t : State, nextIsPoll s → s.fault = none → step s = .next t →
    t.tInstr = (if s.tInstr ≤ s.inputs.now ∧ s.params.clockHz ≤ (s.inputs.now - s.tInstr) * s.params.ips
      then s.inputs.now else s.tInstr) ∧
    (t.fault = none → t.tFrame = (if s.tFrame ≤ s.inputs.now ∧
      s.params.clockHz ≤ (s.inputs.now - s.tFrame) * s.params.fps then s.inputs.now else s.tFrame) ∧
      t.presents = (if s.tFrame ≤ s.inputs.now ∧
        s.params.clockHz ≤ (s.inputs.now - s.tFrame) * s.params.fps then s.presents + 1 else s.presents)) ∧
    (t.fault ≠ none → t.tFrame = s.tFrame ∧ t.presents = s.presents)

/-- R253: "A Poll in which neither gate is open changes nothing"; one in which the timer/frame gate alone is open does
one timer tick and stamps it. -/
def Obligations.PollWithoutInstructionStep : Prop :=
  (∀ s : State, s.params.wf → nextIsPoll s → s.fault = none → s.instrGateOpen = false → s.frameGateOpen = false →
    ∃ t, step s = .next t ∧ Frame [.environment] s t) ∧
  (∀ s : State, s.params.wf → nextIsPoll s → s.fault = none → s.instrGateOpen = false → s.frameGateOpen = true →
    ∃ t, step s = .next t ∧ t.tFrame = s.inputs.now ∧ t.DT.toNat = s.DT.toNat - 1 ∧ t.ST.toNat = s.ST.toNat - 1 ∧
      t.presents = s.presents + 1 ∧ Frame [.tFrame, .DT, .ST, .presents, .environment] s t)

/-- R47 and the model's list of events (assumptions 3 and 4): a Poll the environment's list names has exactly the
inputs named, any inputs; one it does not name has a clock reading one above the last. Each Poll uses one event up. -/
def Obligations.PollTakesTheInputsPresented : Prop :=
  (∀ (s : State) (a : Inputs) (es : List Event), s.events = .poll a :: es → s.inputs = a) ∧
  (∀ s : State, s.events = [] → s.inputs.now = s.lastNow + 1) ∧
  (∀ s t : State, nextIsPoll s → step s = .next t →
    t.events = s.events.tail ∧ t.lastNow = s.inputs.now ∧ t.polls = s.polls + 1 ∧ t.loadOpen = false)

/-! ### Reset, Load, parameters, and the stops (spec/70_reset_and_hazards.md) -/

/-- R290, R37 (`pc` by decision D20, stamps by D18, latch by D15): the Reset event, in any state, leaves the font at
`FONT_BASE`, every other byte 0, and every other element at its reset value; the parameters are not changed. -/
def Obligations.ResetClearsTheUnit : Prop :=
  ∀ (s : State) (es : List Event), s.params.wf → s.events = .reset :: es →
    ∃ t, step s = .next t ∧ t.params = s.params ∧
      (∀ k, k < 80 → t.readByte (s.params.fontBase + k) = s.params.fontData.getD k 0) ∧
      (∀ a, a < s.params.fontBase ∨ s.params.fontBase + 80 ≤ a → t.readByte a = 0) ∧
      (∀ r, t.reg r = 0) ∧ t.I = 0 ∧ t.pc.toNat = s.params.progStart ∧ t.sp = 0 ∧
      t.stack = List.replicate s.params.stackCap 0 ∧ t.DT = 0 ∧ t.ST = 0 ∧ (∀ x y, t.pixel x y = false) ∧
      displayShape t ∧ t.keyBlocked = false ∧ t.stepGate = false ∧ t.tInstr = 0 ∧ t.tFrame = 0 ∧ t.fault = none

/-- R293 (exact test, all-or-nothing write and single use by decision D27): a Load that fits copies every byte and
changes no other byte and no other element; one that does not fit writes nothing and latches `RomTooLarge`. The
premise on memory is an invariant (`Inv.memory`). -/
def Obligations.LoadCopiesOrRejects : Prop :=
  ∀ (s : State) (rom : List Byte) (es : List Event), s.params.wf → Memory.wf s.params s.mem → s.loadOpen = true →
    s.events = .load rom :: es →
    (s.params.progStart + rom.length ≤ 4096 → ∃ t, step s = .next t ∧
      (∀ k, k < rom.length → t.readByte (s.params.progStart + k) = rom.getD k 0) ∧ t.loadOpen = false ∧
      Frame ((List.range rom.length).map (fun k => Elem.byte (s.params.progStart + k)) ++ [.environment]) s t) ∧
    (4096 < s.params.progStart + rom.length → ∃ t, step s = .next t ∧ t.fault = some .romTooLarge ∧
      t.stepGate = false ∧ t.loadOpen = false ∧ Frame [.fault, .stepGate, .environment] s t)

/-- The three stops of the model, where the spec tells a model to refuse (U19, U21, U22; assumptions 6, 7, 8): a
configuration that breaks R9, a Load out of its place, and a key wait whose word is no `FX0A`. -/
def Obligations.StopsAreTheSpecsRefusals : Prop :=
  (∀ s : State, ¬ s.params.wf → step s = .refused .parametersInvalid) ∧
  (∀ (s : State) (rom : List Byte) (es : List Event), s.params.wf → s.loadOpen = false →
    s.events = .load rom :: es → step s = .refused .loadNotLegal) ∧
  (∀ s : State, s.params.wf → nextIsPoll s → s.fault = none → s.instrGateOpen = true → s.keyBlocked = true →
    s.atKeyWait = false → step s = .fault .keyWaitWithoutFX0A)

/-- From a state of a run (`Inv`) the machine never stops except at a Load out of its place: every Poll and every
Reset answers a next state, so every error of R240 is a latched next state. -/
def Obligations.RunNeverStops : Prop :=
  ∀ s : State, Inv s → (∃ t, step s = .next t) ∨
    (∃ rom es, s.events = .load rom :: es ∧ s.loadOpen = false ∧ step s = .refused .loadNotLegal)

/-- R6: the parameters are "set before reset, never changed by a program": no step changes them. -/
def Obligations.ParametersNeverChange : Prop := ∀ s t : State, step s = .next t → t.params = s.params

/-- The invariant holds right after reset, under every configuration that meets R9. -/
def Obligations.InvariantHoldsAtReset : Prop := ∀ p : Params, p.wf → Inv (State.resetWith p)

/-- R35, R24, R25, R27, R29, R121, R204: from every state that meets the invariant, every step answers a state that
meets it, whatever the event and its inputs. -/
def Obligations.StepKeepsInvariant : Prop := ∀ s t : State, Inv s → step s = .next t → Inv t
end

