-- ==== Sys2Proof/Laws/Decode.lean ====
section
/-! SUPPORT. The fields of an assembled word, and the bytes of a word (R62, R91). -/

namespace Sys2Proof

@[simp] theorem regBits_toNat (x : Reg) : (regBits x).toNat = x.val := by simp [regBits]

/-- A register number is its field read back. -/
theorem reg_of_field (b : Nibble) (x : Reg) (h : b = regBits x) : (⟨b.toNat, b.isLt⟩ : Reg) = x := by
  subst h; exact Fin.ext (regBits_toNat x)

/-! ### class, X, NN -/

@[simp] theorem fieldClass_wordXNN (c : Nibble) (x : Reg) (nn : Byte) : fieldClass (wordXNN c x nn) = c := by
  apply BitVec.eq_of_getLsbD_eq
  intro k hk
  simp [fieldClass, wordXNN]
  grind

@[simp] theorem fieldX_wordXNN (c : Nibble) (x : Reg) (nn : Byte) : fieldX (wordXNN c x nn) = x := by
  apply reg_of_field
  apply BitVec.eq_of_getLsbD_eq
  intro k hk
  simp [wordXNN]
  grind

@[simp] theorem fieldNN_wordXNN (c : Nibble) (x : Reg) (nn : Byte) : fieldNN (wordXNN c x nn) = nn := by
  apply BitVec.eq_of_getLsbD_eq
  intro k hk
  simp [fieldNN, wordXNN]
  grind

/-! ### class, X, Y, N -/

@[simp] theorem fieldClass_wordXYN (c : Nibble) (x y : Reg) (n : Nibble) :
    fieldClass (wordXYN c x y n) = c := by
  apply BitVec.eq_of_getLsbD_eq
  intro k hk
  simp [fieldClass, wordXYN]
  grind

@[simp] theorem fieldX_wordXYN (c : Nibble) (x y : Reg) (n : Nibble) : fieldX (wordXYN c x y n) = x := by
  apply reg_of_field
  apply BitVec.eq_of_getLsbD_eq
  intro k hk
  simp [wordXYN]
  grind

@[simp] theorem fieldY_wordXYN (c : Nibble) (x y : Reg) (n : Nibble) : fieldY (wordXYN c x y n) = y := by
  apply reg_of_field
  apply BitVec.eq_of_getLsbD_eq
  intro k hk
  simp [wordXYN]
  grind

@[simp] theorem fieldN_wordXYN (c : Nibble) (x y : Reg) (n : Nibble) : fieldN (wordXYN c x y n) = n := by
  apply BitVec.eq_of_getLsbD_eq
  intro k hk
  simp [fieldN, wordXYN]
  grind

/-! ### class, NNN -/

@[simp] theorem fieldClass_wordNNN (c : Nibble) (nnn : Imm12) : fieldClass (wordNNN c nnn) = c := by
  apply BitVec.eq_of_getLsbD_eq
  intro k hk
  simp [fieldClass, wordNNN]
  grind

@[simp] theorem fieldNNN_wordNNN (c : Nibble) (nnn : Imm12) : fieldNNN (wordNNN c nnn) = nnn := by
  apply BitVec.eq_of_getLsbD_eq
  intro k hk
  simp [fieldNNN, wordNNN]
  grind

/-! ### A word from its fields, and from its bytes -/

@[simp] theorem regBits_fieldX (w : Word) : regBits (fieldX w) = w.extractLsb' 8 4 := by
  apply BitVec.eq_of_toNat_eq
  simp [regBits, fieldX]

@[simp] theorem regBits_fieldY (w : Word) : regBits (fieldY w) = w.extractLsb' 4 4 := by
  apply BitVec.eq_of_toNat_eq
  simp [regBits, fieldY]

theorem wordNNN_fields (w : Word) : wordNNN (fieldClass w) (fieldNNN w) = w := by
  apply BitVec.eq_of_getLsbD_eq
  intro k hk
  simp [fieldClass, fieldNNN, wordNNN]
  grind

theorem wordXNN_fields (w : Word) : wordXNN (fieldClass w) (fieldX w) (fieldNN w) = w := by
  apply BitVec.eq_of_getLsbD_eq
  intro k hk
  simp [fieldClass, fieldNN, wordXNN]
  grind

theorem wordXYN_fields (w : Word) : wordXYN (fieldClass w) (fieldX w) (fieldY w) (fieldN w) = w := by
  apply BitVec.eq_of_getLsbD_eq
  intro k hk
  simp [fieldClass, fieldN, wordXYN]
  grind

@[simp] theorem wordOfBytes_bytes (w : Word) : wordOfBytes (highByte w) (lowByte w) = w := by
  apply BitVec.eq_of_getLsbD_eq
  intro k hk
  simp [wordOfBytes, highByte, lowByte]
  grind

@[simp] theorem highByte_wordOfBytes (hi lo : Byte) : highByte (wordOfBytes hi lo) = hi := by
  apply BitVec.eq_of_getLsbD_eq
  intro k hk
  simp [wordOfBytes, highByte]
  grind

@[simp] theorem lowByte_wordOfBytes (hi lo : Byte) : lowByte (wordOfBytes hi lo) = lo := by
  apply BitVec.eq_of_getLsbD_eq
  intro k hk
  simp [wordOfBytes, lowByte]
  grind

theorem wordOfBytes_toNat (hi lo : Byte) : (wordOfBytes hi lo).toNat = hi.toNat * 256 + lo.toNat := by
  have h := lo.isLt
  rw [wordOfBytes, BitVec.toNat_append, ← Nat.shiftLeft_add_eq_or_of_lt h, Nat.shiftLeft_eq]

/-- The halves of a word are its bytes. -/
theorem wordOfBytes_halves (hi lo : Byte) :
    (wordOfBytes hi lo).toNat / 256 = hi.toNat ∧ (wordOfBytes hi lo).toNat % 256 = lo.toNat := by
  have h := lo.isLt
  rw [wordOfBytes_toNat]
  omega

end Sys2Proof
end

