-- ==== Sys2Proof/Laws/State.lean ====
section
/-! SUPPORT. One lemma per field per update (Machine/Ops.lean, Machine/Pacer.lean, Machine/Boot.lean), so that no
proof unfolds a record update. -/

namespace Sys2Proof.Machine

@[simp] theorem State.setReg_params (s : State) (r : Reg) (b : Byte) : (s.setReg r b).params = s.params := rfl
@[simp] theorem State.setReg_mem (s : State) (r : Reg) (b : Byte) : (s.setReg r b).mem = s.mem := rfl
@[simp] theorem State.setReg_V (s : State) (r : Reg) (b : Byte) : (s.setReg r b).V = s.V.set r.val b r.isLt := rfl
@[simp] theorem State.setReg_I (s : State) (r : Reg) (b : Byte) : (s.setReg r b).I = s.I := rfl
@[simp] theorem State.setReg_pc (s : State) (r : Reg) (b : Byte) : (s.setReg r b).pc = s.pc := rfl
@[simp] theorem State.setReg_stack (s : State) (r : Reg) (b : Byte) : (s.setReg r b).stack = s.stack := rfl
@[simp] theorem State.setReg_sp (s : State) (r : Reg) (b : Byte) : (s.setReg r b).sp = s.sp := rfl
@[simp] theorem State.setReg_DT (s : State) (r : Reg) (b : Byte) : (s.setReg r b).DT = s.DT := rfl
@[simp] theorem State.setReg_ST (s : State) (r : Reg) (b : Byte) : (s.setReg r b).ST = s.ST := rfl
@[simp] theorem State.setReg_disp (s : State) (r : Reg) (b : Byte) : (s.setReg r b).disp = s.disp := rfl
@[simp] theorem State.setReg_keyBlocked (s : State) (r : Reg) (b : Byte) : (s.setReg r b).keyBlocked = s.keyBlocked := rfl
@[simp] theorem State.setReg_stepGate (s : State) (r : Reg) (b : Byte) : (s.setReg r b).stepGate = s.stepGate := rfl
@[simp] theorem State.setReg_tInstr (s : State) (r : Reg) (b : Byte) : (s.setReg r b).tInstr = s.tInstr := rfl
@[simp] theorem State.setReg_tFrame (s : State) (r : Reg) (b : Byte) : (s.setReg r b).tFrame = s.tFrame := rfl
@[simp] theorem State.setReg_fault (s : State) (r : Reg) (b : Byte) : (s.setReg r b).fault = s.fault := rfl
@[simp] theorem State.setReg_events (s : State) (r : Reg) (b : Byte) : (s.setReg r b).events = s.events := rfl
@[simp] theorem State.setReg_lastNow (s : State) (r : Reg) (b : Byte) : (s.setReg r b).lastNow = s.lastNow := rfl
@[simp] theorem State.setReg_polls (s : State) (r : Reg) (b : Byte) : (s.setReg r b).polls = s.polls := rfl
@[simp] theorem State.setReg_loadOpen (s : State) (r : Reg) (b : Byte) : (s.setReg r b).loadOpen = s.loadOpen := rfl
@[simp] theorem State.setReg_presents (s : State) (r : Reg) (b : Byte) : (s.setReg r b).presents = s.presents := rfl

@[simp] theorem State.setI_params (s : State) (w : Word) : (s.setI w).params = s.params := rfl
@[simp] theorem State.setI_mem (s : State) (w : Word) : (s.setI w).mem = s.mem := rfl
@[simp] theorem State.setI_V (s : State) (w : Word) : (s.setI w).V = s.V := rfl
@[simp] theorem State.setI_I (s : State) (w : Word) : (s.setI w).I = w := rfl
@[simp] theorem State.setI_pc (s : State) (w : Word) : (s.setI w).pc = s.pc := rfl
@[simp] theorem State.setI_stack (s : State) (w : Word) : (s.setI w).stack = s.stack := rfl
@[simp] theorem State.setI_sp (s : State) (w : Word) : (s.setI w).sp = s.sp := rfl
@[simp] theorem State.setI_DT (s : State) (w : Word) : (s.setI w).DT = s.DT := rfl
@[simp] theorem State.setI_ST (s : State) (w : Word) : (s.setI w).ST = s.ST := rfl
@[simp] theorem State.setI_disp (s : State) (w : Word) : (s.setI w).disp = s.disp := rfl
@[simp] theorem State.setI_keyBlocked (s : State) (w : Word) : (s.setI w).keyBlocked = s.keyBlocked := rfl
@[simp] theorem State.setI_stepGate (s : State) (w : Word) : (s.setI w).stepGate = s.stepGate := rfl
@[simp] theorem State.setI_tInstr (s : State) (w : Word) : (s.setI w).tInstr = s.tInstr := rfl
@[simp] theorem State.setI_tFrame (s : State) (w : Word) : (s.setI w).tFrame = s.tFrame := rfl
@[simp] theorem State.setI_fault (s : State) (w : Word) : (s.setI w).fault = s.fault := rfl
@[simp] theorem State.setI_events (s : State) (w : Word) : (s.setI w).events = s.events := rfl
@[simp] theorem State.setI_lastNow (s : State) (w : Word) : (s.setI w).lastNow = s.lastNow := rfl
@[simp] theorem State.setI_polls (s : State) (w : Word) : (s.setI w).polls = s.polls := rfl
@[simp] theorem State.setI_loadOpen (s : State) (w : Word) : (s.setI w).loadOpen = s.loadOpen := rfl
@[simp] theorem State.setI_presents (s : State) (w : Word) : (s.setI w).presents = s.presents := rfl

@[simp] theorem State.setPc_params (s : State) (w : Word) : (s.setPc w).params = s.params := rfl
@[simp] theorem State.setPc_mem (s : State) (w : Word) : (s.setPc w).mem = s.mem := rfl
@[simp] theorem State.setPc_V (s : State) (w : Word) : (s.setPc w).V = s.V := rfl
@[simp] theorem State.setPc_I (s : State) (w : Word) : (s.setPc w).I = s.I := rfl
@[simp] theorem State.setPc_pc (s : State) (w : Word) : (s.setPc w).pc = w := rfl
@[simp] theorem State.setPc_stack (s : State) (w : Word) : (s.setPc w).stack = s.stack := rfl
@[simp] theorem State.setPc_sp (s : State) (w : Word) : (s.setPc w).sp = s.sp := rfl
@[simp] theorem State.setPc_DT (s : State) (w : Word) : (s.setPc w).DT = s.DT := rfl
@[simp] theorem State.setPc_ST (s : State) (w : Word) : (s.setPc w).ST = s.ST := rfl
@[simp] theorem State.setPc_disp (s : State) (w : Word) : (s.setPc w).disp = s.disp := rfl
@[simp] theorem State.setPc_keyBlocked (s : State) (w : Word) : (s.setPc w).keyBlocked = s.keyBlocked := rfl
@[simp] theorem State.setPc_stepGate (s : State) (w : Word) : (s.setPc w).stepGate = s.stepGate := rfl
@[simp] theorem State.setPc_tInstr (s : State) (w : Word) : (s.setPc w).tInstr = s.tInstr := rfl
@[simp] theorem State.setPc_tFrame (s : State) (w : Word) : (s.setPc w).tFrame = s.tFrame := rfl
@[simp] theorem State.setPc_fault (s : State) (w : Word) : (s.setPc w).fault = s.fault := rfl
@[simp] theorem State.setPc_events (s : State) (w : Word) : (s.setPc w).events = s.events := rfl
@[simp] theorem State.setPc_lastNow (s : State) (w : Word) : (s.setPc w).lastNow = s.lastNow := rfl
@[simp] theorem State.setPc_polls (s : State) (w : Word) : (s.setPc w).polls = s.polls := rfl
@[simp] theorem State.setPc_loadOpen (s : State) (w : Word) : (s.setPc w).loadOpen = s.loadOpen := rfl
@[simp] theorem State.setPc_presents (s : State) (w : Word) : (s.setPc w).presents = s.presents := rfl

@[simp] theorem State.setDT_params (s : State) (b : Byte) : (s.setDT b).params = s.params := rfl
@[simp] theorem State.setDT_mem (s : State) (b : Byte) : (s.setDT b).mem = s.mem := rfl
@[simp] theorem State.setDT_V (s : State) (b : Byte) : (s.setDT b).V = s.V := rfl
@[simp] theorem State.setDT_I (s : State) (b : Byte) : (s.setDT b).I = s.I := rfl
@[simp] theorem State.setDT_pc (s : State) (b : Byte) : (s.setDT b).pc = s.pc := rfl
@[simp] theorem State.setDT_stack (s : State) (b : Byte) : (s.setDT b).stack = s.stack := rfl
@[simp] theorem State.setDT_sp (s : State) (b : Byte) : (s.setDT b).sp = s.sp := rfl
@[simp] theorem State.setDT_DT (s : State) (b : Byte) : (s.setDT b).DT = b := rfl
@[simp] theorem State.setDT_ST (s : State) (b : Byte) : (s.setDT b).ST = s.ST := rfl
@[simp] theorem State.setDT_disp (s : State) (b : Byte) : (s.setDT b).disp = s.disp := rfl
@[simp] theorem State.setDT_keyBlocked (s : State) (b : Byte) : (s.setDT b).keyBlocked = s.keyBlocked := rfl
@[simp] theorem State.setDT_stepGate (s : State) (b : Byte) : (s.setDT b).stepGate = s.stepGate := rfl
@[simp] theorem State.setDT_tInstr (s : State) (b : Byte) : (s.setDT b).tInstr = s.tInstr := rfl
@[simp] theorem State.setDT_tFrame (s : State) (b : Byte) : (s.setDT b).tFrame = s.tFrame := rfl
@[simp] theorem State.setDT_fault (s : State) (b : Byte) : (s.setDT b).fault = s.fault := rfl
@[simp] theorem State.setDT_events (s : State) (b : Byte) : (s.setDT b).events = s.events := rfl
@[simp] theorem State.setDT_lastNow (s : State) (b : Byte) : (s.setDT b).lastNow = s.lastNow := rfl
@[simp] theorem State.setDT_polls (s : State) (b : Byte) : (s.setDT b).polls = s.polls := rfl
@[simp] theorem State.setDT_loadOpen (s : State) (b : Byte) : (s.setDT b).loadOpen = s.loadOpen := rfl
@[simp] theorem State.setDT_presents (s : State) (b : Byte) : (s.setDT b).presents = s.presents := rfl

@[simp] theorem State.setST_params (s : State) (b : Byte) : (s.setST b).params = s.params := rfl
@[simp] theorem State.setST_mem (s : State) (b : Byte) : (s.setST b).mem = s.mem := rfl
@[simp] theorem State.setST_V (s : State) (b : Byte) : (s.setST b).V = s.V := rfl
@[simp] theorem State.setST_I (s : State) (b : Byte) : (s.setST b).I = s.I := rfl
@[simp] theorem State.setST_pc (s : State) (b : Byte) : (s.setST b).pc = s.pc := rfl
@[simp] theorem State.setST_stack (s : State) (b : Byte) : (s.setST b).stack = s.stack := rfl
@[simp] theorem State.setST_sp (s : State) (b : Byte) : (s.setST b).sp = s.sp := rfl
@[simp] theorem State.setST_DT (s : State) (b : Byte) : (s.setST b).DT = s.DT := rfl
@[simp] theorem State.setST_ST (s : State) (b : Byte) : (s.setST b).ST = b := rfl
@[simp] theorem State.setST_disp (s : State) (b : Byte) : (s.setST b).disp = s.disp := rfl
@[simp] theorem State.setST_keyBlocked (s : State) (b : Byte) : (s.setST b).keyBlocked = s.keyBlocked := rfl
@[simp] theorem State.setST_stepGate (s : State) (b : Byte) : (s.setST b).stepGate = s.stepGate := rfl
@[simp] theorem State.setST_tInstr (s : State) (b : Byte) : (s.setST b).tInstr = s.tInstr := rfl
@[simp] theorem State.setST_tFrame (s : State) (b : Byte) : (s.setST b).tFrame = s.tFrame := rfl
@[simp] theorem State.setST_fault (s : State) (b : Byte) : (s.setST b).fault = s.fault := rfl
@[simp] theorem State.setST_events (s : State) (b : Byte) : (s.setST b).events = s.events := rfl
@[simp] theorem State.setST_lastNow (s : State) (b : Byte) : (s.setST b).lastNow = s.lastNow := rfl
@[simp] theorem State.setST_polls (s : State) (b : Byte) : (s.setST b).polls = s.polls := rfl
@[simp] theorem State.setST_loadOpen (s : State) (b : Byte) : (s.setST b).loadOpen = s.loadOpen := rfl
@[simp] theorem State.setST_presents (s : State) (b : Byte) : (s.setST b).presents = s.presents := rfl

@[simp] theorem State.setMem_params (s : State) (m : Memory) : (s.setMem m).params = s.params := rfl
@[simp] theorem State.setMem_mem (s : State) (m : Memory) : (s.setMem m).mem = m := rfl
@[simp] theorem State.setMem_V (s : State) (m : Memory) : (s.setMem m).V = s.V := rfl
@[simp] theorem State.setMem_I (s : State) (m : Memory) : (s.setMem m).I = s.I := rfl
@[simp] theorem State.setMem_pc (s : State) (m : Memory) : (s.setMem m).pc = s.pc := rfl
@[simp] theorem State.setMem_stack (s : State) (m : Memory) : (s.setMem m).stack = s.stack := rfl
@[simp] theorem State.setMem_sp (s : State) (m : Memory) : (s.setMem m).sp = s.sp := rfl
@[simp] theorem State.setMem_DT (s : State) (m : Memory) : (s.setMem m).DT = s.DT := rfl
@[simp] theorem State.setMem_ST (s : State) (m : Memory) : (s.setMem m).ST = s.ST := rfl
@[simp] theorem State.setMem_disp (s : State) (m : Memory) : (s.setMem m).disp = s.disp := rfl
@[simp] theorem State.setMem_keyBlocked (s : State) (m : Memory) : (s.setMem m).keyBlocked = s.keyBlocked := rfl
@[simp] theorem State.setMem_stepGate (s : State) (m : Memory) : (s.setMem m).stepGate = s.stepGate := rfl
@[simp] theorem State.setMem_tInstr (s : State) (m : Memory) : (s.setMem m).tInstr = s.tInstr := rfl
@[simp] theorem State.setMem_tFrame (s : State) (m : Memory) : (s.setMem m).tFrame = s.tFrame := rfl
@[simp] theorem State.setMem_fault (s : State) (m : Memory) : (s.setMem m).fault = s.fault := rfl
@[simp] theorem State.setMem_events (s : State) (m : Memory) : (s.setMem m).events = s.events := rfl
@[simp] theorem State.setMem_lastNow (s : State) (m : Memory) : (s.setMem m).lastNow = s.lastNow := rfl
@[simp] theorem State.setMem_polls (s : State) (m : Memory) : (s.setMem m).polls = s.polls := rfl
@[simp] theorem State.setMem_loadOpen (s : State) (m : Memory) : (s.setMem m).loadOpen = s.loadOpen := rfl
@[simp] theorem State.setMem_presents (s : State) (m : Memory) : (s.setMem m).presents = s.presents := rfl

@[simp] theorem State.setStack_params (s : State) (l : List Word) (n : Nat) : (s.setStack l n).params = s.params := rfl
@[simp] theorem State.setStack_mem (s : State) (l : List Word) (n : Nat) : (s.setStack l n).mem = s.mem := rfl
@[simp] theorem State.setStack_V (s : State) (l : List Word) (n : Nat) : (s.setStack l n).V = s.V := rfl
@[simp] theorem State.setStack_I (s : State) (l : List Word) (n : Nat) : (s.setStack l n).I = s.I := rfl
@[simp] theorem State.setStack_pc (s : State) (l : List Word) (n : Nat) : (s.setStack l n).pc = s.pc := rfl
@[simp] theorem State.setStack_stack (s : State) (l : List Word) (n : Nat) : (s.setStack l n).stack = l := rfl
@[simp] theorem State.setStack_sp (s : State) (l : List Word) (n : Nat) : (s.setStack l n).sp = n := rfl
@[simp] theorem State.setStack_DT (s : State) (l : List Word) (n : Nat) : (s.setStack l n).DT = s.DT := rfl
@[simp] theorem State.setStack_ST (s : State) (l : List Word) (n : Nat) : (s.setStack l n).ST = s.ST := rfl
@[simp] theorem State.setStack_disp (s : State) (l : List Word) (n : Nat) : (s.setStack l n).disp = s.disp := rfl
@[simp] theorem State.setStack_keyBlocked (s : State) (l : List Word) (n : Nat) : (s.setStack l n).keyBlocked = s.keyBlocked := rfl
@[simp] theorem State.setStack_stepGate (s : State) (l : List Word) (n : Nat) : (s.setStack l n).stepGate = s.stepGate := rfl
@[simp] theorem State.setStack_tInstr (s : State) (l : List Word) (n : Nat) : (s.setStack l n).tInstr = s.tInstr := rfl
@[simp] theorem State.setStack_tFrame (s : State) (l : List Word) (n : Nat) : (s.setStack l n).tFrame = s.tFrame := rfl
@[simp] theorem State.setStack_fault (s : State) (l : List Word) (n : Nat) : (s.setStack l n).fault = s.fault := rfl
@[simp] theorem State.setStack_events (s : State) (l : List Word) (n : Nat) : (s.setStack l n).events = s.events := rfl
@[simp] theorem State.setStack_lastNow (s : State) (l : List Word) (n : Nat) : (s.setStack l n).lastNow = s.lastNow := rfl
@[simp] theorem State.setStack_polls (s : State) (l : List Word) (n : Nat) : (s.setStack l n).polls = s.polls := rfl
@[simp] theorem State.setStack_loadOpen (s : State) (l : List Word) (n : Nat) : (s.setStack l n).loadOpen = s.loadOpen := rfl
@[simp] theorem State.setStack_presents (s : State) (l : List Word) (n : Nat) : (s.setStack l n).presents = s.presents := rfl

@[simp] theorem State.setDisp_params (s : State) (d : List (List Bool)) : (s.setDisp d).params = s.params := rfl
@[simp] theorem State.setDisp_mem (s : State) (d : List (List Bool)) : (s.setDisp d).mem = s.mem := rfl
@[simp] theorem State.setDisp_V (s : State) (d : List (List Bool)) : (s.setDisp d).V = s.V := rfl
@[simp] theorem State.setDisp_I (s : State) (d : List (List Bool)) : (s.setDisp d).I = s.I := rfl
@[simp] theorem State.setDisp_pc (s : State) (d : List (List Bool)) : (s.setDisp d).pc = s.pc := rfl
@[simp] theorem State.setDisp_stack (s : State) (d : List (List Bool)) : (s.setDisp d).stack = s.stack := rfl
@[simp] theorem State.setDisp_sp (s : State) (d : List (List Bool)) : (s.setDisp d).sp = s.sp := rfl
@[simp] theorem State.setDisp_DT (s : State) (d : List (List Bool)) : (s.setDisp d).DT = s.DT := rfl
@[simp] theorem State.setDisp_ST (s : State) (d : List (List Bool)) : (s.setDisp d).ST = s.ST := rfl
@[simp] theorem State.setDisp_disp (s : State) (d : List (List Bool)) : (s.setDisp d).disp = d := rfl
@[simp] theorem State.setDisp_keyBlocked (s : State) (d : List (List Bool)) : (s.setDisp d).keyBlocked = s.keyBlocked := rfl
@[simp] theorem State.setDisp_stepGate (s : State) (d : List (List Bool)) : (s.setDisp d).stepGate = s.stepGate := rfl
@[simp] theorem State.setDisp_tInstr (s : State) (d : List (List Bool)) : (s.setDisp d).tInstr = s.tInstr := rfl
@[simp] theorem State.setDisp_tFrame (s : State) (d : List (List Bool)) : (s.setDisp d).tFrame = s.tFrame := rfl
@[simp] theorem State.setDisp_fault (s : State) (d : List (List Bool)) : (s.setDisp d).fault = s.fault := rfl
@[simp] theorem State.setDisp_events (s : State) (d : List (List Bool)) : (s.setDisp d).events = s.events := rfl
@[simp] theorem State.setDisp_lastNow (s : State) (d : List (List Bool)) : (s.setDisp d).lastNow = s.lastNow := rfl
@[simp] theorem State.setDisp_polls (s : State) (d : List (List Bool)) : (s.setDisp d).polls = s.polls := rfl
@[simp] theorem State.setDisp_loadOpen (s : State) (d : List (List Bool)) : (s.setDisp d).loadOpen = s.loadOpen := rfl
@[simp] theorem State.setDisp_presents (s : State) (d : List (List Bool)) : (s.setDisp d).presents = s.presents := rfl

@[simp] theorem State.setKeyBlocked_params (s : State) (b : Bool) : (s.setKeyBlocked b).params = s.params := rfl
@[simp] theorem State.setKeyBlocked_mem (s : State) (b : Bool) : (s.setKeyBlocked b).mem = s.mem := rfl
@[simp] theorem State.setKeyBlocked_V (s : State) (b : Bool) : (s.setKeyBlocked b).V = s.V := rfl
@[simp] theorem State.setKeyBlocked_I (s : State) (b : Bool) : (s.setKeyBlocked b).I = s.I := rfl
@[simp] theorem State.setKeyBlocked_pc (s : State) (b : Bool) : (s.setKeyBlocked b).pc = s.pc := rfl
@[simp] theorem State.setKeyBlocked_stack (s : State) (b : Bool) : (s.setKeyBlocked b).stack = s.stack := rfl
@[simp] theorem State.setKeyBlocked_sp (s : State) (b : Bool) : (s.setKeyBlocked b).sp = s.sp := rfl
@[simp] theorem State.setKeyBlocked_DT (s : State) (b : Bool) : (s.setKeyBlocked b).DT = s.DT := rfl
@[simp] theorem State.setKeyBlocked_ST (s : State) (b : Bool) : (s.setKeyBlocked b).ST = s.ST := rfl
@[simp] theorem State.setKeyBlocked_disp (s : State) (b : Bool) : (s.setKeyBlocked b).disp = s.disp := rfl
@[simp] theorem State.setKeyBlocked_keyBlocked (s : State) (b : Bool) : (s.setKeyBlocked b).keyBlocked = b := rfl
@[simp] theorem State.setKeyBlocked_stepGate (s : State) (b : Bool) : (s.setKeyBlocked b).stepGate = s.stepGate := rfl
@[simp] theorem State.setKeyBlocked_tInstr (s : State) (b : Bool) : (s.setKeyBlocked b).tInstr = s.tInstr := rfl
@[simp] theorem State.setKeyBlocked_tFrame (s : State) (b : Bool) : (s.setKeyBlocked b).tFrame = s.tFrame := rfl
@[simp] theorem State.setKeyBlocked_fault (s : State) (b : Bool) : (s.setKeyBlocked b).fault = s.fault := rfl
@[simp] theorem State.setKeyBlocked_events (s : State) (b : Bool) : (s.setKeyBlocked b).events = s.events := rfl
@[simp] theorem State.setKeyBlocked_lastNow (s : State) (b : Bool) : (s.setKeyBlocked b).lastNow = s.lastNow := rfl
@[simp] theorem State.setKeyBlocked_polls (s : State) (b : Bool) : (s.setKeyBlocked b).polls = s.polls := rfl
@[simp] theorem State.setKeyBlocked_loadOpen (s : State) (b : Bool) : (s.setKeyBlocked b).loadOpen = s.loadOpen := rfl
@[simp] theorem State.setKeyBlocked_presents (s : State) (b : Bool) : (s.setKeyBlocked b).presents = s.presents := rfl

@[simp] theorem State.setStepGate_params (s : State) (b : Bool) : (s.setStepGate b).params = s.params := rfl
@[simp] theorem State.setStepGate_mem (s : State) (b : Bool) : (s.setStepGate b).mem = s.mem := rfl
@[simp] theorem State.setStepGate_V (s : State) (b : Bool) : (s.setStepGate b).V = s.V := rfl
@[simp] theorem State.setStepGate_I (s : State) (b : Bool) : (s.setStepGate b).I = s.I := rfl
@[simp] theorem State.setStepGate_pc (s : State) (b : Bool) : (s.setStepGate b).pc = s.pc := rfl
@[simp] theorem State.setStepGate_stack (s : State) (b : Bool) : (s.setStepGate b).stack = s.stack := rfl
@[simp] theorem State.setStepGate_sp (s : State) (b : Bool) : (s.setStepGate b).sp = s.sp := rfl
@[simp] theorem State.setStepGate_DT (s : State) (b : Bool) : (s.setStepGate b).DT = s.DT := rfl
@[simp] theorem State.setStepGate_ST (s : State) (b : Bool) : (s.setStepGate b).ST = s.ST := rfl
@[simp] theorem State.setStepGate_disp (s : State) (b : Bool) : (s.setStepGate b).disp = s.disp := rfl
@[simp] theorem State.setStepGate_keyBlocked (s : State) (b : Bool) : (s.setStepGate b).keyBlocked = s.keyBlocked := rfl
@[simp] theorem State.setStepGate_stepGate (s : State) (b : Bool) : (s.setStepGate b).stepGate = b := rfl
@[simp] theorem State.setStepGate_tInstr (s : State) (b : Bool) : (s.setStepGate b).tInstr = s.tInstr := rfl
@[simp] theorem State.setStepGate_tFrame (s : State) (b : Bool) : (s.setStepGate b).tFrame = s.tFrame := rfl
@[simp] theorem State.setStepGate_fault (s : State) (b : Bool) : (s.setStepGate b).fault = s.fault := rfl
@[simp] theorem State.setStepGate_events (s : State) (b : Bool) : (s.setStepGate b).events = s.events := rfl
@[simp] theorem State.setStepGate_lastNow (s : State) (b : Bool) : (s.setStepGate b).lastNow = s.lastNow := rfl
@[simp] theorem State.setStepGate_polls (s : State) (b : Bool) : (s.setStepGate b).polls = s.polls := rfl
@[simp] theorem State.setStepGate_loadOpen (s : State) (b : Bool) : (s.setStepGate b).loadOpen = s.loadOpen := rfl
@[simp] theorem State.setStepGate_presents (s : State) (b : Bool) : (s.setStepGate b).presents = s.presents := rfl

@[simp] theorem State.setTInstr_params (s : State) (n : Nat) : (s.setTInstr n).params = s.params := rfl
@[simp] theorem State.setTInstr_mem (s : State) (n : Nat) : (s.setTInstr n).mem = s.mem := rfl
@[simp] theorem State.setTInstr_V (s : State) (n : Nat) : (s.setTInstr n).V = s.V := rfl
@[simp] theorem State.setTInstr_I (s : State) (n : Nat) : (s.setTInstr n).I = s.I := rfl
@[simp] theorem State.setTInstr_pc (s : State) (n : Nat) : (s.setTInstr n).pc = s.pc := rfl
@[simp] theorem State.setTInstr_stack (s : State) (n : Nat) : (s.setTInstr n).stack = s.stack := rfl
@[simp] theorem State.setTInstr_sp (s : State) (n : Nat) : (s.setTInstr n).sp = s.sp := rfl
@[simp] theorem State.setTInstr_DT (s : State) (n : Nat) : (s.setTInstr n).DT = s.DT := rfl
@[simp] theorem State.setTInstr_ST (s : State) (n : Nat) : (s.setTInstr n).ST = s.ST := rfl
@[simp] theorem State.setTInstr_disp (s : State) (n : Nat) : (s.setTInstr n).disp = s.disp := rfl
@[simp] theorem State.setTInstr_keyBlocked (s : State) (n : Nat) : (s.setTInstr n).keyBlocked = s.keyBlocked := rfl
@[simp] theorem State.setTInstr_stepGate (s : State) (n : Nat) : (s.setTInstr n).stepGate = s.stepGate := rfl
@[simp] theorem State.setTInstr_tInstr (s : State) (n : Nat) : (s.setTInstr n).tInstr = n := rfl
@[simp] theorem State.setTInstr_tFrame (s : State) (n : Nat) : (s.setTInstr n).tFrame = s.tFrame := rfl
@[simp] theorem State.setTInstr_fault (s : State) (n : Nat) : (s.setTInstr n).fault = s.fault := rfl
@[simp] theorem State.setTInstr_events (s : State) (n : Nat) : (s.setTInstr n).events = s.events := rfl
@[simp] theorem State.setTInstr_lastNow (s : State) (n : Nat) : (s.setTInstr n).lastNow = s.lastNow := rfl
@[simp] theorem State.setTInstr_polls (s : State) (n : Nat) : (s.setTInstr n).polls = s.polls := rfl
@[simp] theorem State.setTInstr_loadOpen (s : State) (n : Nat) : (s.setTInstr n).loadOpen = s.loadOpen := rfl
@[simp] theorem State.setTInstr_presents (s : State) (n : Nat) : (s.setTInstr n).presents = s.presents := rfl

@[simp] theorem State.setTFrame_params (s : State) (n : Nat) : (s.setTFrame n).params = s.params := rfl
@[simp] theorem State.setTFrame_mem (s : State) (n : Nat) : (s.setTFrame n).mem = s.mem := rfl
@[simp] theorem State.setTFrame_V (s : State) (n : Nat) : (s.setTFrame n).V = s.V := rfl
@[simp] theorem State.setTFrame_I (s : State) (n : Nat) : (s.setTFrame n).I = s.I := rfl
@[simp] theorem State.setTFrame_pc (s : State) (n : Nat) : (s.setTFrame n).pc = s.pc := rfl
@[simp] theorem State.setTFrame_stack (s : State) (n : Nat) : (s.setTFrame n).stack = s.stack := rfl
@[simp] theorem State.setTFrame_sp (s : State) (n : Nat) : (s.setTFrame n).sp = s.sp := rfl
@[simp] theorem State.setTFrame_DT (s : State) (n : Nat) : (s.setTFrame n).DT = s.DT := rfl
@[simp] theorem State.setTFrame_ST (s : State) (n : Nat) : (s.setTFrame n).ST = s.ST := rfl
@[simp] theorem State.setTFrame_disp (s : State) (n : Nat) : (s.setTFrame n).disp = s.disp := rfl
@[simp] theorem State.setTFrame_keyBlocked (s : State) (n : Nat) : (s.setTFrame n).keyBlocked = s.keyBlocked := rfl
@[simp] theorem State.setTFrame_stepGate (s : State) (n : Nat) : (s.setTFrame n).stepGate = s.stepGate := rfl
@[simp] theorem State.setTFrame_tInstr (s : State) (n : Nat) : (s.setTFrame n).tInstr = s.tInstr := rfl
@[simp] theorem State.setTFrame_tFrame (s : State) (n : Nat) : (s.setTFrame n).tFrame = n := rfl
@[simp] theorem State.setTFrame_fault (s : State) (n : Nat) : (s.setTFrame n).fault = s.fault := rfl
@[simp] theorem State.setTFrame_events (s : State) (n : Nat) : (s.setTFrame n).events = s.events := rfl
@[simp] theorem State.setTFrame_lastNow (s : State) (n : Nat) : (s.setTFrame n).lastNow = s.lastNow := rfl
@[simp] theorem State.setTFrame_polls (s : State) (n : Nat) : (s.setTFrame n).polls = s.polls := rfl
@[simp] theorem State.setTFrame_loadOpen (s : State) (n : Nat) : (s.setTFrame n).loadOpen = s.loadOpen := rfl
@[simp] theorem State.setTFrame_presents (s : State) (n : Nat) : (s.setTFrame n).presents = s.presents := rfl

@[simp] theorem State.setFault_params (s : State) (f : Option ErrorKind) : (s.setFault f).params = s.params := rfl
@[simp] theorem State.setFault_mem (s : State) (f : Option ErrorKind) : (s.setFault f).mem = s.mem := rfl
@[simp] theorem State.setFault_V (s : State) (f : Option ErrorKind) : (s.setFault f).V = s.V := rfl
@[simp] theorem State.setFault_I (s : State) (f : Option ErrorKind) : (s.setFault f).I = s.I := rfl
@[simp] theorem State.setFault_pc (s : State) (f : Option ErrorKind) : (s.setFault f).pc = s.pc := rfl
@[simp] theorem State.setFault_stack (s : State) (f : Option ErrorKind) : (s.setFault f).stack = s.stack := rfl
@[simp] theorem State.setFault_sp (s : State) (f : Option ErrorKind) : (s.setFault f).sp = s.sp := rfl
@[simp] theorem State.setFault_DT (s : State) (f : Option ErrorKind) : (s.setFault f).DT = s.DT := rfl
@[simp] theorem State.setFault_ST (s : State) (f : Option ErrorKind) : (s.setFault f).ST = s.ST := rfl
@[simp] theorem State.setFault_disp (s : State) (f : Option ErrorKind) : (s.setFault f).disp = s.disp := rfl
@[simp] theorem State.setFault_keyBlocked (s : State) (f : Option ErrorKind) : (s.setFault f).keyBlocked = s.keyBlocked := rfl
@[simp] theorem State.setFault_stepGate (s : State) (f : Option ErrorKind) : (s.setFault f).stepGate = s.stepGate := rfl
@[simp] theorem State.setFault_tInstr (s : State) (f : Option ErrorKind) : (s.setFault f).tInstr = s.tInstr := rfl
@[simp] theorem State.setFault_tFrame (s : State) (f : Option ErrorKind) : (s.setFault f).tFrame = s.tFrame := rfl
@[simp] theorem State.setFault_fault (s : State) (f : Option ErrorKind) : (s.setFault f).fault = f := rfl
@[simp] theorem State.setFault_events (s : State) (f : Option ErrorKind) : (s.setFault f).events = s.events := rfl
@[simp] theorem State.setFault_lastNow (s : State) (f : Option ErrorKind) : (s.setFault f).lastNow = s.lastNow := rfl
@[simp] theorem State.setFault_polls (s : State) (f : Option ErrorKind) : (s.setFault f).polls = s.polls := rfl
@[simp] theorem State.setFault_loadOpen (s : State) (f : Option ErrorKind) : (s.setFault f).loadOpen = s.loadOpen := rfl
@[simp] theorem State.setFault_presents (s : State) (f : Option ErrorKind) : (s.setFault f).presents = s.presents := rfl

@[simp] theorem State.setEvents_params (s : State) (es : List Event) : (s.setEvents es).params = s.params := rfl
@[simp] theorem State.setEvents_mem (s : State) (es : List Event) : (s.setEvents es).mem = s.mem := rfl
@[simp] theorem State.setEvents_V (s : State) (es : List Event) : (s.setEvents es).V = s.V := rfl
@[simp] theorem State.setEvents_I (s : State) (es : List Event) : (s.setEvents es).I = s.I := rfl
@[simp] theorem State.setEvents_pc (s : State) (es : List Event) : (s.setEvents es).pc = s.pc := rfl
@[simp] theorem State.setEvents_stack (s : State) (es : List Event) : (s.setEvents es).stack = s.stack := rfl
@[simp] theorem State.setEvents_sp (s : State) (es : List Event) : (s.setEvents es).sp = s.sp := rfl
@[simp] theorem State.setEvents_DT (s : State) (es : List Event) : (s.setEvents es).DT = s.DT := rfl
@[simp] theorem State.setEvents_ST (s : State) (es : List Event) : (s.setEvents es).ST = s.ST := rfl
@[simp] theorem State.setEvents_disp (s : State) (es : List Event) : (s.setEvents es).disp = s.disp := rfl
@[simp] theorem State.setEvents_keyBlocked (s : State) (es : List Event) : (s.setEvents es).keyBlocked = s.keyBlocked := rfl
@[simp] theorem State.setEvents_stepGate (s : State) (es : List Event) : (s.setEvents es).stepGate = s.stepGate := rfl
@[simp] theorem State.setEvents_tInstr (s : State) (es : List Event) : (s.setEvents es).tInstr = s.tInstr := rfl
@[simp] theorem State.setEvents_tFrame (s : State) (es : List Event) : (s.setEvents es).tFrame = s.tFrame := rfl
@[simp] theorem State.setEvents_fault (s : State) (es : List Event) : (s.setEvents es).fault = s.fault := rfl
@[simp] theorem State.setEvents_events (s : State) (es : List Event) : (s.setEvents es).events = es := rfl
@[simp] theorem State.setEvents_lastNow (s : State) (es : List Event) : (s.setEvents es).lastNow = s.lastNow := rfl
@[simp] theorem State.setEvents_polls (s : State) (es : List Event) : (s.setEvents es).polls = s.polls := rfl
@[simp] theorem State.setEvents_loadOpen (s : State) (es : List Event) : (s.setEvents es).loadOpen = s.loadOpen := rfl
@[simp] theorem State.setEvents_presents (s : State) (es : List Event) : (s.setEvents es).presents = s.presents := rfl

@[simp] theorem State.strobePresent_params (s : State) : (s.strobePresent).params = s.params := rfl
@[simp] theorem State.strobePresent_mem (s : State) : (s.strobePresent).mem = s.mem := rfl
@[simp] theorem State.strobePresent_V (s : State) : (s.strobePresent).V = s.V := rfl
@[simp] theorem State.strobePresent_I (s : State) : (s.strobePresent).I = s.I := rfl
@[simp] theorem State.strobePresent_pc (s : State) : (s.strobePresent).pc = s.pc := rfl
@[simp] theorem State.strobePresent_stack (s : State) : (s.strobePresent).stack = s.stack := rfl
@[simp] theorem State.strobePresent_sp (s : State) : (s.strobePresent).sp = s.sp := rfl
@[simp] theorem State.strobePresent_DT (s : State) : (s.strobePresent).DT = s.DT := rfl
@[simp] theorem State.strobePresent_ST (s : State) : (s.strobePresent).ST = s.ST := rfl
@[simp] theorem State.strobePresent_disp (s : State) : (s.strobePresent).disp = s.disp := rfl
@[simp] theorem State.strobePresent_keyBlocked (s : State) : (s.strobePresent).keyBlocked = s.keyBlocked := rfl
@[simp] theorem State.strobePresent_stepGate (s : State) : (s.strobePresent).stepGate = s.stepGate := rfl
@[simp] theorem State.strobePresent_tInstr (s : State) : (s.strobePresent).tInstr = s.tInstr := rfl
@[simp] theorem State.strobePresent_tFrame (s : State) : (s.strobePresent).tFrame = s.tFrame := rfl
@[simp] theorem State.strobePresent_fault (s : State) : (s.strobePresent).fault = s.fault := rfl
@[simp] theorem State.strobePresent_events (s : State) : (s.strobePresent).events = s.events := rfl
@[simp] theorem State.strobePresent_lastNow (s : State) : (s.strobePresent).lastNow = s.lastNow := rfl
@[simp] theorem State.strobePresent_polls (s : State) : (s.strobePresent).polls = s.polls := rfl
@[simp] theorem State.strobePresent_loadOpen (s : State) : (s.strobePresent).loadOpen = s.loadOpen := rfl
@[simp] theorem State.strobePresent_presents (s : State) : (s.strobePresent).presents = s.presents + 1 := rfl

@[simp] theorem State.raise_params (s : State) (k : ErrorKind) : (s.raise k).params = s.params := rfl
@[simp] theorem State.raise_mem (s : State) (k : ErrorKind) : (s.raise k).mem = s.mem := rfl
@[simp] theorem State.raise_V (s : State) (k : ErrorKind) : (s.raise k).V = s.V := rfl
@[simp] theorem State.raise_I (s : State) (k : ErrorKind) : (s.raise k).I = s.I := rfl
@[simp] theorem State.raise_pc (s : State) (k : ErrorKind) : (s.raise k).pc = s.pc := rfl
@[simp] theorem State.raise_stack (s : State) (k : ErrorKind) : (s.raise k).stack = s.stack := rfl
@[simp] theorem State.raise_sp (s : State) (k : ErrorKind) : (s.raise k).sp = s.sp := rfl
@[simp] theorem State.raise_DT (s : State) (k : ErrorKind) : (s.raise k).DT = s.DT := rfl
@[simp] theorem State.raise_ST (s : State) (k : ErrorKind) : (s.raise k).ST = s.ST := rfl
@[simp] theorem State.raise_disp (s : State) (k : ErrorKind) : (s.raise k).disp = s.disp := rfl
@[simp] theorem State.raise_keyBlocked (s : State) (k : ErrorKind) : (s.raise k).keyBlocked = s.keyBlocked := rfl
@[simp] theorem State.raise_stepGate (s : State) (k : ErrorKind) : (s.raise k).stepGate = false := rfl
@[simp] theorem State.raise_tInstr (s : State) (k : ErrorKind) : (s.raise k).tInstr = s.tInstr := rfl
@[simp] theorem State.raise_tFrame (s : State) (k : ErrorKind) : (s.raise k).tFrame = s.tFrame := rfl
@[simp] theorem State.raise_fault (s : State) (k : ErrorKind) : (s.raise k).fault = some k := rfl
@[simp] theorem State.raise_events (s : State) (k : ErrorKind) : (s.raise k).events = s.events := rfl
@[simp] theorem State.raise_lastNow (s : State) (k : ErrorKind) : (s.raise k).lastNow = s.lastNow := rfl
@[simp] theorem State.raise_polls (s : State) (k : ErrorKind) : (s.raise k).polls = s.polls := rfl
@[simp] theorem State.raise_loadOpen (s : State) (k : ErrorKind) : (s.raise k).loadOpen = s.loadOpen := rfl
@[simp] theorem State.raise_presents (s : State) (k : ErrorKind) : (s.raise k).presents = s.presents := rfl

@[simp] theorem State.advancePc_params (s : State) : (s.advancePc).params = s.params := rfl
@[simp] theorem State.advancePc_mem (s : State) : (s.advancePc).mem = s.mem := rfl
@[simp] theorem State.advancePc_V (s : State) : (s.advancePc).V = s.V := rfl
@[simp] theorem State.advancePc_I (s : State) : (s.advancePc).I = s.I := rfl
@[simp] theorem State.advancePc_pc (s : State) : (s.advancePc).pc = s.pc + 2 := rfl
@[simp] theorem State.advancePc_stack (s : State) : (s.advancePc).stack = s.stack := rfl
@[simp] theorem State.advancePc_sp (s : State) : (s.advancePc).sp = s.sp := rfl
@[simp] theorem State.advancePc_DT (s : State) : (s.advancePc).DT = s.DT := rfl
@[simp] theorem State.advancePc_ST (s : State) : (s.advancePc).ST = s.ST := rfl
@[simp] theorem State.advancePc_disp (s : State) : (s.advancePc).disp = s.disp := rfl
@[simp] theorem State.advancePc_keyBlocked (s : State) : (s.advancePc).keyBlocked = s.keyBlocked := rfl
@[simp] theorem State.advancePc_stepGate (s : State) : (s.advancePc).stepGate = s.stepGate := rfl
@[simp] theorem State.advancePc_tInstr (s : State) : (s.advancePc).tInstr = s.tInstr := rfl
@[simp] theorem State.advancePc_tFrame (s : State) : (s.advancePc).tFrame = s.tFrame := rfl
@[simp] theorem State.advancePc_fault (s : State) : (s.advancePc).fault = s.fault := rfl
@[simp] theorem State.advancePc_events (s : State) : (s.advancePc).events = s.events := rfl
@[simp] theorem State.advancePc_lastNow (s : State) : (s.advancePc).lastNow = s.lastNow := rfl
@[simp] theorem State.advancePc_polls (s : State) : (s.advancePc).polls = s.polls := rfl
@[simp] theorem State.advancePc_loadOpen (s : State) : (s.advancePc).loadOpen = s.loadOpen := rfl
@[simp] theorem State.advancePc_presents (s : State) : (s.advancePc).presents = s.presents := rfl

@[simp] theorem State.rewindPc_params (s : State) : (s.rewindPc).params = s.params := rfl
@[simp] theorem State.rewindPc_mem (s : State) : (s.rewindPc).mem = s.mem := rfl
@[simp] theorem State.rewindPc_V (s : State) : (s.rewindPc).V = s.V := rfl
@[simp] theorem State.rewindPc_I (s : State) : (s.rewindPc).I = s.I := rfl
@[simp] theorem State.rewindPc_pc (s : State) : (s.rewindPc).pc = s.pc - 2 := rfl
@[simp] theorem State.rewindPc_stack (s : State) : (s.rewindPc).stack = s.stack := rfl
@[simp] theorem State.rewindPc_sp (s : State) : (s.rewindPc).sp = s.sp := rfl
@[simp] theorem State.rewindPc_DT (s : State) : (s.rewindPc).DT = s.DT := rfl
@[simp] theorem State.rewindPc_ST (s : State) : (s.rewindPc).ST = s.ST := rfl
@[simp] theorem State.rewindPc_disp (s : State) : (s.rewindPc).disp = s.disp := rfl
@[simp] theorem State.rewindPc_keyBlocked (s : State) : (s.rewindPc).keyBlocked = s.keyBlocked := rfl
@[simp] theorem State.rewindPc_stepGate (s : State) : (s.rewindPc).stepGate = s.stepGate := rfl
@[simp] theorem State.rewindPc_tInstr (s : State) : (s.rewindPc).tInstr = s.tInstr := rfl
@[simp] theorem State.rewindPc_tFrame (s : State) : (s.rewindPc).tFrame = s.tFrame := rfl
@[simp] theorem State.rewindPc_fault (s : State) : (s.rewindPc).fault = s.fault := rfl
@[simp] theorem State.rewindPc_events (s : State) : (s.rewindPc).events = s.events := rfl
@[simp] theorem State.rewindPc_lastNow (s : State) : (s.rewindPc).lastNow = s.lastNow := rfl
@[simp] theorem State.rewindPc_polls (s : State) : (s.rewindPc).polls = s.polls := rfl
@[simp] theorem State.rewindPc_loadOpen (s : State) : (s.rewindPc).loadOpen = s.loadOpen := rfl
@[simp] theorem State.rewindPc_presents (s : State) : (s.rewindPc).presents = s.presents := rfl

@[simp] theorem State.clearDisplay_params (s : State) : (s.clearDisplay).params = s.params := rfl
@[simp] theorem State.clearDisplay_mem (s : State) : (s.clearDisplay).mem = s.mem := rfl
@[simp] theorem State.clearDisplay_V (s : State) : (s.clearDisplay).V = s.V := rfl
@[simp] theorem State.clearDisplay_I (s : State) : (s.clearDisplay).I = s.I := rfl
@[simp] theorem State.clearDisplay_pc (s : State) : (s.clearDisplay).pc = s.pc := rfl
@[simp] theorem State.clearDisplay_stack (s : State) : (s.clearDisplay).stack = s.stack := rfl
@[simp] theorem State.clearDisplay_sp (s : State) : (s.clearDisplay).sp = s.sp := rfl
@[simp] theorem State.clearDisplay_DT (s : State) : (s.clearDisplay).DT = s.DT := rfl
@[simp] theorem State.clearDisplay_ST (s : State) : (s.clearDisplay).ST = s.ST := rfl
@[simp] theorem State.clearDisplay_disp (s : State) : (s.clearDisplay).disp = List.replicate s.params.dispH (List.replicate s.params.dispW false) := rfl
@[simp] theorem State.clearDisplay_keyBlocked (s : State) : (s.clearDisplay).keyBlocked = s.keyBlocked := rfl
@[simp] theorem State.clearDisplay_stepGate (s : State) : (s.clearDisplay).stepGate = s.stepGate := rfl
@[simp] theorem State.clearDisplay_tInstr (s : State) : (s.clearDisplay).tInstr = s.tInstr := rfl
@[simp] theorem State.clearDisplay_tFrame (s : State) : (s.clearDisplay).tFrame = s.tFrame := rfl
@[simp] theorem State.clearDisplay_fault (s : State) : (s.clearDisplay).fault = s.fault := rfl
@[simp] theorem State.clearDisplay_events (s : State) : (s.clearDisplay).events = s.events := rfl
@[simp] theorem State.clearDisplay_lastNow (s : State) : (s.clearDisplay).lastNow = s.lastNow := rfl
@[simp] theorem State.clearDisplay_polls (s : State) : (s.clearDisplay).polls = s.polls := rfl
@[simp] theorem State.clearDisplay_loadOpen (s : State) : (s.clearDisplay).loadOpen = s.loadOpen := rfl
@[simp] theorem State.clearDisplay_presents (s : State) : (s.clearDisplay).presents = s.presents := rfl

@[simp] theorem State.togglePixel_params (s : State) (x y : Nat) : (s.togglePixel x y).params = s.params := rfl
@[simp] theorem State.togglePixel_mem (s : State) (x y : Nat) : (s.togglePixel x y).mem = s.mem := rfl
@[simp] theorem State.togglePixel_V (s : State) (x y : Nat) : (s.togglePixel x y).V = s.V := rfl
@[simp] theorem State.togglePixel_I (s : State) (x y : Nat) : (s.togglePixel x y).I = s.I := rfl
@[simp] theorem State.togglePixel_pc (s : State) (x y : Nat) : (s.togglePixel x y).pc = s.pc := rfl
@[simp] theorem State.togglePixel_stack (s : State) (x y : Nat) : (s.togglePixel x y).stack = s.stack := rfl
@[simp] theorem State.togglePixel_sp (s : State) (x y : Nat) : (s.togglePixel x y).sp = s.sp := rfl
@[simp] theorem State.togglePixel_DT (s : State) (x y : Nat) : (s.togglePixel x y).DT = s.DT := rfl
@[simp] theorem State.togglePixel_ST (s : State) (x y : Nat) : (s.togglePixel x y).ST = s.ST := rfl
@[simp] theorem State.togglePixel_disp (s : State) (x y : Nat) : (s.togglePixel x y).disp = s.disp.modify y (fun row => row.modify x not) := rfl
@[simp] theorem State.togglePixel_keyBlocked (s : State) (x y : Nat) : (s.togglePixel x y).keyBlocked = s.keyBlocked := rfl
@[simp] theorem State.togglePixel_stepGate (s : State) (x y : Nat) : (s.togglePixel x y).stepGate = s.stepGate := rfl
@[simp] theorem State.togglePixel_tInstr (s : State) (x y : Nat) : (s.togglePixel x y).tInstr = s.tInstr := rfl
@[simp] theorem State.togglePixel_tFrame (s : State) (x y : Nat) : (s.togglePixel x y).tFrame = s.tFrame := rfl
@[simp] theorem State.togglePixel_fault (s : State) (x y : Nat) : (s.togglePixel x y).fault = s.fault := rfl
@[simp] theorem State.togglePixel_events (s : State) (x y : Nat) : (s.togglePixel x y).events = s.events := rfl
@[simp] theorem State.togglePixel_lastNow (s : State) (x y : Nat) : (s.togglePixel x y).lastNow = s.lastNow := rfl
@[simp] theorem State.togglePixel_polls (s : State) (x y : Nat) : (s.togglePixel x y).polls = s.polls := rfl
@[simp] theorem State.togglePixel_loadOpen (s : State) (x y : Nat) : (s.togglePixel x y).loadOpen = s.loadOpen := rfl
@[simp] theorem State.togglePixel_presents (s : State) (x y : Nat) : (s.togglePixel x y).presents = s.presents := rfl

@[simp] theorem State.timerTick_params (s : State) : (s.timerTick).params = s.params := rfl
@[simp] theorem State.timerTick_mem (s : State) : (s.timerTick).mem = s.mem := rfl
@[simp] theorem State.timerTick_V (s : State) : (s.timerTick).V = s.V := rfl
@[simp] theorem State.timerTick_I (s : State) : (s.timerTick).I = s.I := rfl
@[simp] theorem State.timerTick_pc (s : State) : (s.timerTick).pc = s.pc := rfl
@[simp] theorem State.timerTick_stack (s : State) : (s.timerTick).stack = s.stack := rfl
@[simp] theorem State.timerTick_sp (s : State) : (s.timerTick).sp = s.sp := rfl
@[simp] theorem State.timerTick_DT (s : State) : (s.timerTick).DT = countDown s.DT := rfl
@[simp] theorem State.timerTick_ST (s : State) : (s.timerTick).ST = countDown s.ST := rfl
@[simp] theorem State.timerTick_disp (s : State) : (s.timerTick).disp = s.disp := rfl
@[simp] theorem State.timerTick_keyBlocked (s : State) : (s.timerTick).keyBlocked = s.keyBlocked := rfl
@[simp] theorem State.timerTick_stepGate (s : State) : (s.timerTick).stepGate = s.stepGate := rfl
@[simp] theorem State.timerTick_tInstr (s : State) : (s.timerTick).tInstr = s.tInstr := rfl
@[simp] theorem State.timerTick_tFrame (s : State) : (s.timerTick).tFrame = s.tFrame := rfl
@[simp] theorem State.timerTick_fault (s : State) : (s.timerTick).fault = s.fault := rfl
@[simp] theorem State.timerTick_events (s : State) : (s.timerTick).events = s.events := rfl
@[simp] theorem State.timerTick_lastNow (s : State) : (s.timerTick).lastNow = s.lastNow := rfl
@[simp] theorem State.timerTick_polls (s : State) : (s.timerTick).polls = s.polls := rfl
@[simp] theorem State.timerTick_loadOpen (s : State) : (s.timerTick).loadOpen = s.loadOpen := rfl
@[simp] theorem State.timerTick_presents (s : State) : (s.timerTick).presents = s.presents + 1 := rfl

@[simp] theorem State.admitInstr_params (s : State) : (s.admitInstr).params = s.params := rfl
@[simp] theorem State.admitInstr_mem (s : State) : (s.admitInstr).mem = s.mem := rfl
@[simp] theorem State.admitInstr_V (s : State) : (s.admitInstr).V = s.V := rfl
@[simp] theorem State.admitInstr_I (s : State) : (s.admitInstr).I = s.I := rfl
@[simp] theorem State.admitInstr_pc (s : State) : (s.admitInstr).pc = s.pc := rfl
@[simp] theorem State.admitInstr_stack (s : State) : (s.admitInstr).stack = s.stack := rfl
@[simp] theorem State.admitInstr_sp (s : State) : (s.admitInstr).sp = s.sp := rfl
@[simp] theorem State.admitInstr_DT (s : State) : (s.admitInstr).DT = s.DT := rfl
@[simp] theorem State.admitInstr_ST (s : State) : (s.admitInstr).ST = s.ST := rfl
@[simp] theorem State.admitInstr_disp (s : State) : (s.admitInstr).disp = s.disp := rfl
@[simp] theorem State.admitInstr_keyBlocked (s : State) : (s.admitInstr).keyBlocked = s.keyBlocked := rfl
@[simp] theorem State.admitInstr_stepGate (s : State) : (s.admitInstr).stepGate = true := rfl
@[simp] theorem State.admitInstr_tInstr (s : State) : (s.admitInstr).tInstr = s.inputs.now := rfl
@[simp] theorem State.admitInstr_tFrame (s : State) : (s.admitInstr).tFrame = s.tFrame := rfl
@[simp] theorem State.admitInstr_fault (s : State) : (s.admitInstr).fault = s.fault := rfl
@[simp] theorem State.admitInstr_events (s : State) : (s.admitInstr).events = s.events := rfl
@[simp] theorem State.admitInstr_lastNow (s : State) : (s.admitInstr).lastNow = s.lastNow := rfl
@[simp] theorem State.admitInstr_polls (s : State) : (s.admitInstr).polls = s.polls := rfl
@[simp] theorem State.admitInstr_loadOpen (s : State) : (s.admitInstr).loadOpen = s.loadOpen := rfl
@[simp] theorem State.admitInstr_presents (s : State) : (s.admitInstr).presents = s.presents := rfl

@[simp] theorem State.endPoll_params (s : State) : (s.endPoll).params = s.params := rfl
@[simp] theorem State.endPoll_mem (s : State) : (s.endPoll).mem = s.mem := rfl
@[simp] theorem State.endPoll_V (s : State) : (s.endPoll).V = s.V := rfl
@[simp] theorem State.endPoll_I (s : State) : (s.endPoll).I = s.I := rfl
@[simp] theorem State.endPoll_pc (s : State) : (s.endPoll).pc = s.pc := rfl
@[simp] theorem State.endPoll_stack (s : State) : (s.endPoll).stack = s.stack := rfl
@[simp] theorem State.endPoll_sp (s : State) : (s.endPoll).sp = s.sp := rfl
@[simp] theorem State.endPoll_DT (s : State) : (s.endPoll).DT = s.DT := rfl
@[simp] theorem State.endPoll_ST (s : State) : (s.endPoll).ST = s.ST := rfl
@[simp] theorem State.endPoll_disp (s : State) : (s.endPoll).disp = s.disp := rfl
@[simp] theorem State.endPoll_keyBlocked (s : State) : (s.endPoll).keyBlocked = s.keyBlocked := rfl
@[simp] theorem State.endPoll_stepGate (s : State) : (s.endPoll).stepGate = s.stepGate := rfl
@[simp] theorem State.endPoll_tInstr (s : State) : (s.endPoll).tInstr = s.tInstr := rfl
@[simp] theorem State.endPoll_tFrame (s : State) : (s.endPoll).tFrame = s.tFrame := rfl
@[simp] theorem State.endPoll_fault (s : State) : (s.endPoll).fault = s.fault := rfl
@[simp] theorem State.endPoll_events (s : State) : (s.endPoll).events = s.events.tail := rfl
@[simp] theorem State.endPoll_lastNow (s : State) : (s.endPoll).lastNow = s.inputs.now := rfl
@[simp] theorem State.endPoll_polls (s : State) : (s.endPoll).polls = s.polls + 1 := rfl
@[simp] theorem State.endPoll_loadOpen (s : State) : (s.endPoll).loadOpen = false := rfl
@[simp] theorem State.endPoll_presents (s : State) : (s.endPoll).presents = s.presents := rfl

@[simp] theorem State.endLoad_params (s : State) : (s.endLoad).params = s.params := rfl
@[simp] theorem State.endLoad_mem (s : State) : (s.endLoad).mem = s.mem := rfl
@[simp] theorem State.endLoad_V (s : State) : (s.endLoad).V = s.V := rfl
@[simp] theorem State.endLoad_I (s : State) : (s.endLoad).I = s.I := rfl
@[simp] theorem State.endLoad_pc (s : State) : (s.endLoad).pc = s.pc := rfl
@[simp] theorem State.endLoad_stack (s : State) : (s.endLoad).stack = s.stack := rfl
@[simp] theorem State.endLoad_sp (s : State) : (s.endLoad).sp = s.sp := rfl
@[simp] theorem State.endLoad_DT (s : State) : (s.endLoad).DT = s.DT := rfl
@[simp] theorem State.endLoad_ST (s : State) : (s.endLoad).ST = s.ST := rfl
@[simp] theorem State.endLoad_disp (s : State) : (s.endLoad).disp = s.disp := rfl
@[simp] theorem State.endLoad_keyBlocked (s : State) : (s.endLoad).keyBlocked = s.keyBlocked := rfl
@[simp] theorem State.endLoad_stepGate (s : State) : (s.endLoad).stepGate = s.stepGate := rfl
@[simp] theorem State.endLoad_tInstr (s : State) : (s.endLoad).tInstr = s.tInstr := rfl
@[simp] theorem State.endLoad_tFrame (s : State) : (s.endLoad).tFrame = s.tFrame := rfl
@[simp] theorem State.endLoad_fault (s : State) : (s.endLoad).fault = s.fault := rfl
@[simp] theorem State.endLoad_events (s : State) : (s.endLoad).events = s.events.tail := rfl
@[simp] theorem State.endLoad_lastNow (s : State) : (s.endLoad).lastNow = s.lastNow := rfl
@[simp] theorem State.endLoad_polls (s : State) : (s.endLoad).polls = s.polls := rfl
@[simp] theorem State.endLoad_loadOpen (s : State) : (s.endLoad).loadOpen = false := rfl
@[simp] theorem State.endLoad_presents (s : State) : (s.endLoad).presents = s.presents := rfl

end Sys2Proof.Machine
end

