-- ==== Sys2Proof/Laws/Observers.lean ====
section
/-! SUPPORT. What each update leaves of the values the rules read through an operation: a register, a byte, a
pixel, the inputs, an effective address, the fetched word, the key wait, the gates. -/

namespace Sys2Proof.Machine

@[simp] theorem State.setReg_readByte (s : State) (r : Reg) (b : Byte) (c : Nat) : (s.setReg r b).readByte c = s.readByte c := rfl
@[simp] theorem State.setReg_memRead (s : State) (r : Reg) (b : Byte) (c : Nat) : (s.setReg r b).memRead c = s.memRead c := rfl
@[simp] theorem State.setReg_pixel (s : State) (r : Reg) (b : Byte) (i j : Nat) : (s.setReg r b).pixel i j = s.pixel i j := rfl
@[simp] theorem State.setReg_inputs (s : State) (r : Reg) (b : Byte) : (s.setReg r b).inputs = s.inputs := rfl
@[simp] theorem State.setReg_effAddr (s : State) (r : Reg) (b : Byte) (c : Nat) : (s.setReg r b).effAddr c = s.effAddr c := rfl
@[simp] theorem State.setReg_fetchWord (s : State) (r : Reg) (b : Byte) : (s.setReg r b).fetchWord = s.fetchWord := rfl
@[simp] theorem State.setReg_atKeyWait (s : State) (r : Reg) (b : Byte) : (s.setReg r b).atKeyWait = s.atKeyWait := rfl
@[simp] theorem State.setReg_waitIntact (s : State) (r : Reg) (b : Byte) : (s.setReg r b).waitIntact = s.waitIntact := rfl
@[simp] theorem State.setReg_instrGateOpen (s : State) (r : Reg) (b : Byte) : (s.setReg r b).instrGateOpen = s.instrGateOpen := rfl
@[simp] theorem State.setReg_frameGateOpen (s : State) (r : Reg) (b : Byte) : (s.setReg r b).frameGateOpen = s.frameGateOpen := rfl

@[simp] theorem State.setI_reg (s : State) (w : Word) (q : Reg) : (s.setI w).reg q = s.reg q := rfl
@[simp] theorem State.setI_readByte (s : State) (w : Word) (c : Nat) : (s.setI w).readByte c = s.readByte c := rfl
@[simp] theorem State.setI_memRead (s : State) (w : Word) (c : Nat) : (s.setI w).memRead c = s.memRead c := rfl
@[simp] theorem State.setI_pixel (s : State) (w : Word) (i j : Nat) : (s.setI w).pixel i j = s.pixel i j := rfl
@[simp] theorem State.setI_inputs (s : State) (w : Word) : (s.setI w).inputs = s.inputs := rfl
@[simp] theorem State.setI_fetchWord (s : State) (w : Word) : (s.setI w).fetchWord = s.fetchWord := rfl
@[simp] theorem State.setI_atKeyWait (s : State) (w : Word) : (s.setI w).atKeyWait = s.atKeyWait := rfl
@[simp] theorem State.setI_waitIntact (s : State) (w : Word) : (s.setI w).waitIntact = s.waitIntact := rfl
@[simp] theorem State.setI_instrGateOpen (s : State) (w : Word) : (s.setI w).instrGateOpen = s.instrGateOpen := rfl
@[simp] theorem State.setI_frameGateOpen (s : State) (w : Word) : (s.setI w).frameGateOpen = s.frameGateOpen := rfl

@[simp] theorem State.setPc_reg (s : State) (w : Word) (q : Reg) : (s.setPc w).reg q = s.reg q := rfl
@[simp] theorem State.setPc_readByte (s : State) (w : Word) (c : Nat) : (s.setPc w).readByte c = s.readByte c := rfl
@[simp] theorem State.setPc_memRead (s : State) (w : Word) (c : Nat) : (s.setPc w).memRead c = s.memRead c := rfl
@[simp] theorem State.setPc_pixel (s : State) (w : Word) (i j : Nat) : (s.setPc w).pixel i j = s.pixel i j := rfl
@[simp] theorem State.setPc_inputs (s : State) (w : Word) : (s.setPc w).inputs = s.inputs := rfl
@[simp] theorem State.setPc_effAddr (s : State) (w : Word) (c : Nat) : (s.setPc w).effAddr c = s.effAddr c := rfl
@[simp] theorem State.setPc_instrGateOpen (s : State) (w : Word) : (s.setPc w).instrGateOpen = s.instrGateOpen := rfl
@[simp] theorem State.setPc_frameGateOpen (s : State) (w : Word) : (s.setPc w).frameGateOpen = s.frameGateOpen := rfl

@[simp] theorem State.setDT_reg (s : State) (b : Byte) (q : Reg) : (s.setDT b).reg q = s.reg q := rfl
@[simp] theorem State.setDT_readByte (s : State) (b : Byte) (c : Nat) : (s.setDT b).readByte c = s.readByte c := rfl
@[simp] theorem State.setDT_memRead (s : State) (b : Byte) (c : Nat) : (s.setDT b).memRead c = s.memRead c := rfl
@[simp] theorem State.setDT_pixel (s : State) (b : Byte) (i j : Nat) : (s.setDT b).pixel i j = s.pixel i j := rfl
@[simp] theorem State.setDT_inputs (s : State) (b : Byte) : (s.setDT b).inputs = s.inputs := rfl
@[simp] theorem State.setDT_effAddr (s : State) (b : Byte) (c : Nat) : (s.setDT b).effAddr c = s.effAddr c := rfl
@[simp] theorem State.setDT_fetchWord (s : State) (b : Byte) : (s.setDT b).fetchWord = s.fetchWord := rfl
@[simp] theorem State.setDT_atKeyWait (s : State) (b : Byte) : (s.setDT b).atKeyWait = s.atKeyWait := rfl
@[simp] theorem State.setDT_waitIntact (s : State) (b : Byte) : (s.setDT b).waitIntact = s.waitIntact := rfl
@[simp] theorem State.setDT_instrGateOpen (s : State) (b : Byte) : (s.setDT b).instrGateOpen = s.instrGateOpen := rfl
@[simp] theorem State.setDT_frameGateOpen (s : State) (b : Byte) : (s.setDT b).frameGateOpen = s.frameGateOpen := rfl

@[simp] theorem State.setST_reg (s : State) (b : Byte) (q : Reg) : (s.setST b).reg q = s.reg q := rfl
@[simp] theorem State.setST_readByte (s : State) (b : Byte) (c : Nat) : (s.setST b).readByte c = s.readByte c := rfl
@[simp] theorem State.setST_memRead (s : State) (b : Byte) (c : Nat) : (s.setST b).memRead c = s.memRead c := rfl
@[simp] theorem State.setST_pixel (s : State) (b : Byte) (i j : Nat) : (s.setST b).pixel i j = s.pixel i j := rfl
@[simp] theorem State.setST_inputs (s : State) (b : Byte) : (s.setST b).inputs = s.inputs := rfl
@[simp] theorem State.setST_effAddr (s : State) (b : Byte) (c : Nat) : (s.setST b).effAddr c = s.effAddr c := rfl
@[simp] theorem State.setST_fetchWord (s : State) (b : Byte) : (s.setST b).fetchWord = s.fetchWord := rfl
@[simp] theorem State.setST_atKeyWait (s : State) (b : Byte) : (s.setST b).atKeyWait = s.atKeyWait := rfl
@[simp] theorem State.setST_waitIntact (s : State) (b : Byte) : (s.setST b).waitIntact = s.waitIntact := rfl
@[simp] theorem State.setST_instrGateOpen (s : State) (b : Byte) : (s.setST b).instrGateOpen = s.instrGateOpen := rfl
@[simp] theorem State.setST_frameGateOpen (s : State) (b : Byte) : (s.setST b).frameGateOpen = s.frameGateOpen := rfl

@[simp] theorem State.setMem_reg (s : State) (m : Memory) (q : Reg) : (s.setMem m).reg q = s.reg q := rfl
@[simp] theorem State.setMem_pixel (s : State) (m : Memory) (i j : Nat) : (s.setMem m).pixel i j = s.pixel i j := rfl
@[simp] theorem State.setMem_inputs (s : State) (m : Memory) : (s.setMem m).inputs = s.inputs := rfl
@[simp] theorem State.setMem_effAddr (s : State) (m : Memory) (c : Nat) : (s.setMem m).effAddr c = s.effAddr c := rfl
@[simp] theorem State.setMem_instrGateOpen (s : State) (m : Memory) : (s.setMem m).instrGateOpen = s.instrGateOpen := rfl
@[simp] theorem State.setMem_frameGateOpen (s : State) (m : Memory) : (s.setMem m).frameGateOpen = s.frameGateOpen := rfl

@[simp] theorem State.setStack_reg (s : State) (l : List Word) (n : Nat) (q : Reg) : (s.setStack l n).reg q = s.reg q := rfl
@[simp] theorem State.setStack_readByte (s : State) (l : List Word) (n : Nat) (c : Nat) : (s.setStack l n).readByte c = s.readByte c := rfl
@[simp] theorem State.setStack_memRead (s : State) (l : List Word) (n : Nat) (c : Nat) : (s.setStack l n).memRead c = s.memRead c := rfl
@[simp] theorem State.setStack_pixel (s : State) (l : List Word) (n : Nat) (i j : Nat) : (s.setStack l n).pixel i j = s.pixel i j := rfl
@[simp] theorem State.setStack_inputs (s : State) (l : List Word) (n : Nat) : (s.setStack l n).inputs = s.inputs := rfl
@[simp] theorem State.setStack_effAddr (s : State) (l : List Word) (n : Nat) (c : Nat) : (s.setStack l n).effAddr c = s.effAddr c := rfl
@[simp] theorem State.setStack_fetchWord (s : State) (l : List Word) (n : Nat) : (s.setStack l n).fetchWord = s.fetchWord := rfl
@[simp] theorem State.setStack_atKeyWait (s : State) (l : List Word) (n : Nat) : (s.setStack l n).atKeyWait = s.atKeyWait := rfl
@[simp] theorem State.setStack_waitIntact (s : State) (l : List Word) (n : Nat) : (s.setStack l n).waitIntact = s.waitIntact := rfl
@[simp] theorem State.setStack_instrGateOpen (s : State) (l : List Word) (n : Nat) : (s.setStack l n).instrGateOpen = s.instrGateOpen := rfl
@[simp] theorem State.setStack_frameGateOpen (s : State) (l : List Word) (n : Nat) : (s.setStack l n).frameGateOpen = s.frameGateOpen := rfl

@[simp] theorem State.setDisp_reg (s : State) (d : List (List Bool)) (q : Reg) : (s.setDisp d).reg q = s.reg q := rfl
@[simp] theorem State.setDisp_readByte (s : State) (d : List (List Bool)) (c : Nat) : (s.setDisp d).readByte c = s.readByte c := rfl
@[simp] theorem State.setDisp_memRead (s : State) (d : List (List Bool)) (c : Nat) : (s.setDisp d).memRead c = s.memRead c := rfl
@[simp] theorem State.setDisp_inputs (s : State) (d : List (List Bool)) : (s.setDisp d).inputs = s.inputs := rfl
@[simp] theorem State.setDisp_effAddr (s : State) (d : List (List Bool)) (c : Nat) : (s.setDisp d).effAddr c = s.effAddr c := rfl
@[simp] theorem State.setDisp_fetchWord (s : State) (d : List (List Bool)) : (s.setDisp d).fetchWord = s.fetchWord := rfl
@[simp] theorem State.setDisp_atKeyWait (s : State) (d : List (List Bool)) : (s.setDisp d).atKeyWait = s.atKeyWait := rfl
@[simp] theorem State.setDisp_waitIntact (s : State) (d : List (List Bool)) : (s.setDisp d).waitIntact = s.waitIntact := rfl
@[simp] theorem State.setDisp_instrGateOpen (s : State) (d : List (List Bool)) : (s.setDisp d).instrGateOpen = s.instrGateOpen := rfl
@[simp] theorem State.setDisp_frameGateOpen (s : State) (d : List (List Bool)) : (s.setDisp d).frameGateOpen = s.frameGateOpen := rfl

@[simp] theorem State.setKeyBlocked_reg (s : State) (b : Bool) (q : Reg) : (s.setKeyBlocked b).reg q = s.reg q := rfl
@[simp] theorem State.setKeyBlocked_readByte (s : State) (b : Bool) (c : Nat) : (s.setKeyBlocked b).readByte c = s.readByte c := rfl
@[simp] theorem State.setKeyBlocked_memRead (s : State) (b : Bool) (c : Nat) : (s.setKeyBlocked b).memRead c = s.memRead c := rfl
@[simp] theorem State.setKeyBlocked_pixel (s : State) (b : Bool) (i j : Nat) : (s.setKeyBlocked b).pixel i j = s.pixel i j := rfl
@[simp] theorem State.setKeyBlocked_inputs (s : State) (b : Bool) : (s.setKeyBlocked b).inputs = s.inputs := rfl
@[simp] theorem State.setKeyBlocked_effAddr (s : State) (b : Bool) (c : Nat) : (s.setKeyBlocked b).effAddr c = s.effAddr c := rfl
@[simp] theorem State.setKeyBlocked_fetchWord (s : State) (b : Bool) : (s.setKeyBlocked b).fetchWord = s.fetchWord := rfl
@[simp] theorem State.setKeyBlocked_atKeyWait (s : State) (b : Bool) : (s.setKeyBlocked b).atKeyWait = s.atKeyWait := rfl
@[simp] theorem State.setKeyBlocked_instrGateOpen (s : State) (b : Bool) : (s.setKeyBlocked b).instrGateOpen = s.instrGateOpen := rfl
@[simp] theorem State.setKeyBlocked_frameGateOpen (s : State) (b : Bool) : (s.setKeyBlocked b).frameGateOpen = s.frameGateOpen := rfl

@[simp] theorem State.setStepGate_reg (s : State) (b : Bool) (q : Reg) : (s.setStepGate b).reg q = s.reg q := rfl
@[simp] theorem State.setStepGate_readByte (s : State) (b : Bool) (c : Nat) : (s.setStepGate b).readByte c = s.readByte c := rfl
@[simp] theorem State.setStepGate_memRead (s : State) (b : Bool) (c : Nat) : (s.setStepGate b).memRead c = s.memRead c := rfl
@[simp] theorem State.setStepGate_pixel (s : State) (b : Bool) (i j : Nat) : (s.setStepGate b).pixel i j = s.pixel i j := rfl
@[simp] theorem State.setStepGate_inputs (s : State) (b : Bool) : (s.setStepGate b).inputs = s.inputs := rfl
@[simp] theorem State.setStepGate_effAddr (s : State) (b : Bool) (c : Nat) : (s.setStepGate b).effAddr c = s.effAddr c := rfl
@[simp] theorem State.setStepGate_fetchWord (s : State) (b : Bool) : (s.setStepGate b).fetchWord = s.fetchWord := rfl
@[simp] theorem State.setStepGate_atKeyWait (s : State) (b : Bool) : (s.setStepGate b).atKeyWait = s.atKeyWait := rfl
@[simp] theorem State.setStepGate_waitIntact (s : State) (b : Bool) : (s.setStepGate b).waitIntact = s.waitIntact := rfl
@[simp] theorem State.setStepGate_instrGateOpen (s : State) (b : Bool) : (s.setStepGate b).instrGateOpen = s.instrGateOpen := rfl
@[simp] theorem State.setStepGate_frameGateOpen (s : State) (b : Bool) : (s.setStepGate b).frameGateOpen = s.frameGateOpen := rfl

@[simp] theorem State.setTInstr_reg (s : State) (n : Nat) (q : Reg) : (s.setTInstr n).reg q = s.reg q := rfl
@[simp] theorem State.setTInstr_readByte (s : State) (n : Nat) (c : Nat) : (s.setTInstr n).readByte c = s.readByte c := rfl
@[simp] theorem State.setTInstr_memRead (s : State) (n : Nat) (c : Nat) : (s.setTInstr n).memRead c = s.memRead c := rfl
@[simp] theorem State.setTInstr_pixel (s : State) (n : Nat) (i j : Nat) : (s.setTInstr n).pixel i j = s.pixel i j := rfl
@[simp] theorem State.setTInstr_inputs (s : State) (n : Nat) : (s.setTInstr n).inputs = s.inputs := rfl
@[simp] theorem State.setTInstr_effAddr (s : State) (n : Nat) (c : Nat) : (s.setTInstr n).effAddr c = s.effAddr c := rfl
@[simp] theorem State.setTInstr_fetchWord (s : State) (n : Nat) : (s.setTInstr n).fetchWord = s.fetchWord := rfl
@[simp] theorem State.setTInstr_atKeyWait (s : State) (n : Nat) : (s.setTInstr n).atKeyWait = s.atKeyWait := rfl
@[simp] theorem State.setTInstr_waitIntact (s : State) (n : Nat) : (s.setTInstr n).waitIntact = s.waitIntact := rfl
@[simp] theorem State.setTInstr_frameGateOpen (s : State) (n : Nat) : (s.setTInstr n).frameGateOpen = s.frameGateOpen := rfl

@[simp] theorem State.setTFrame_reg (s : State) (n : Nat) (q : Reg) : (s.setTFrame n).reg q = s.reg q := rfl
@[simp] theorem State.setTFrame_readByte (s : State) (n : Nat) (c : Nat) : (s.setTFrame n).readByte c = s.readByte c := rfl
@[simp] theorem State.setTFrame_memRead (s : State) (n : Nat) (c : Nat) : (s.setTFrame n).memRead c = s.memRead c := rfl
@[simp] theorem State.setTFrame_pixel (s : State) (n : Nat) (i j : Nat) : (s.setTFrame n).pixel i j = s.pixel i j := rfl
@[simp] theorem State.setTFrame_inputs (s : State) (n : Nat) : (s.setTFrame n).inputs = s.inputs := rfl
@[simp] theorem State.setTFrame_effAddr (s : State) (n : Nat) (c : Nat) : (s.setTFrame n).effAddr c = s.effAddr c := rfl
@[simp] theorem State.setTFrame_fetchWord (s : State) (n : Nat) : (s.setTFrame n).fetchWord = s.fetchWord := rfl
@[simp] theorem State.setTFrame_atKeyWait (s : State) (n : Nat) : (s.setTFrame n).atKeyWait = s.atKeyWait := rfl
@[simp] theorem State.setTFrame_waitIntact (s : State) (n : Nat) : (s.setTFrame n).waitIntact = s.waitIntact := rfl
@[simp] theorem State.setTFrame_instrGateOpen (s : State) (n : Nat) : (s.setTFrame n).instrGateOpen = s.instrGateOpen := rfl

@[simp] theorem State.setFault_reg (s : State) (f : Option ErrorKind) (q : Reg) : (s.setFault f).reg q = s.reg q := rfl
@[simp] theorem State.setFault_readByte (s : State) (f : Option ErrorKind) (c : Nat) : (s.setFault f).readByte c = s.readByte c := rfl
@[simp] theorem State.setFault_memRead (s : State) (f : Option ErrorKind) (c : Nat) : (s.setFault f).memRead c = s.memRead c := rfl
@[simp] theorem State.setFault_pixel (s : State) (f : Option ErrorKind) (i j : Nat) : (s.setFault f).pixel i j = s.pixel i j := rfl
@[simp] theorem State.setFault_inputs (s : State) (f : Option ErrorKind) : (s.setFault f).inputs = s.inputs := rfl
@[simp] theorem State.setFault_effAddr (s : State) (f : Option ErrorKind) (c : Nat) : (s.setFault f).effAddr c = s.effAddr c := rfl
@[simp] theorem State.setFault_fetchWord (s : State) (f : Option ErrorKind) : (s.setFault f).fetchWord = s.fetchWord := rfl
@[simp] theorem State.setFault_atKeyWait (s : State) (f : Option ErrorKind) : (s.setFault f).atKeyWait = s.atKeyWait := rfl
@[simp] theorem State.setFault_waitIntact (s : State) (f : Option ErrorKind) : (s.setFault f).waitIntact = s.waitIntact := rfl
@[simp] theorem State.setFault_instrGateOpen (s : State) (f : Option ErrorKind) : (s.setFault f).instrGateOpen = s.instrGateOpen := rfl
@[simp] theorem State.setFault_frameGateOpen (s : State) (f : Option ErrorKind) : (s.setFault f).frameGateOpen = s.frameGateOpen := rfl

@[simp] theorem State.setEvents_reg (s : State) (es : List Event) (q : Reg) : (s.setEvents es).reg q = s.reg q := rfl
@[simp] theorem State.setEvents_readByte (s : State) (es : List Event) (c : Nat) : (s.setEvents es).readByte c = s.readByte c := rfl
@[simp] theorem State.setEvents_memRead (s : State) (es : List Event) (c : Nat) : (s.setEvents es).memRead c = s.memRead c := rfl
@[simp] theorem State.setEvents_pixel (s : State) (es : List Event) (i j : Nat) : (s.setEvents es).pixel i j = s.pixel i j := rfl
@[simp] theorem State.setEvents_effAddr (s : State) (es : List Event) (c : Nat) : (s.setEvents es).effAddr c = s.effAddr c := rfl
@[simp] theorem State.setEvents_fetchWord (s : State) (es : List Event) : (s.setEvents es).fetchWord = s.fetchWord := rfl
@[simp] theorem State.setEvents_atKeyWait (s : State) (es : List Event) : (s.setEvents es).atKeyWait = s.atKeyWait := rfl
@[simp] theorem State.setEvents_waitIntact (s : State) (es : List Event) : (s.setEvents es).waitIntact = s.waitIntact := rfl

@[simp] theorem State.strobePresent_reg (s : State) (q : Reg) : (s.strobePresent).reg q = s.reg q := rfl
@[simp] theorem State.strobePresent_readByte (s : State) (c : Nat) : (s.strobePresent).readByte c = s.readByte c := rfl
@[simp] theorem State.strobePresent_memRead (s : State) (c : Nat) : (s.strobePresent).memRead c = s.memRead c := rfl
@[simp] theorem State.strobePresent_pixel (s : State) (i j : Nat) : (s.strobePresent).pixel i j = s.pixel i j := rfl
@[simp] theorem State.strobePresent_inputs (s : State) : (s.strobePresent).inputs = s.inputs := rfl
@[simp] theorem State.strobePresent_effAddr (s : State) (c : Nat) : (s.strobePresent).effAddr c = s.effAddr c := rfl
@[simp] theorem State.strobePresent_fetchWord (s : State) : (s.strobePresent).fetchWord = s.fetchWord := rfl
@[simp] theorem State.strobePresent_atKeyWait (s : State) : (s.strobePresent).atKeyWait = s.atKeyWait := rfl
@[simp] theorem State.strobePresent_waitIntact (s : State) : (s.strobePresent).waitIntact = s.waitIntact := rfl
@[simp] theorem State.strobePresent_instrGateOpen (s : State) : (s.strobePresent).instrGateOpen = s.instrGateOpen := rfl
@[simp] theorem State.strobePresent_frameGateOpen (s : State) : (s.strobePresent).frameGateOpen = s.frameGateOpen := rfl

@[simp] theorem State.raise_reg (s : State) (k : ErrorKind) (q : Reg) : (s.raise k).reg q = s.reg q := rfl
@[simp] theorem State.raise_readByte (s : State) (k : ErrorKind) (c : Nat) : (s.raise k).readByte c = s.readByte c := rfl
@[simp] theorem State.raise_memRead (s : State) (k : ErrorKind) (c : Nat) : (s.raise k).memRead c = s.memRead c := rfl
@[simp] theorem State.raise_pixel (s : State) (k : ErrorKind) (i j : Nat) : (s.raise k).pixel i j = s.pixel i j := rfl
@[simp] theorem State.raise_inputs (s : State) (k : ErrorKind) : (s.raise k).inputs = s.inputs := rfl
@[simp] theorem State.raise_effAddr (s : State) (k : ErrorKind) (c : Nat) : (s.raise k).effAddr c = s.effAddr c := rfl
@[simp] theorem State.raise_fetchWord (s : State) (k : ErrorKind) : (s.raise k).fetchWord = s.fetchWord := rfl
@[simp] theorem State.raise_atKeyWait (s : State) (k : ErrorKind) : (s.raise k).atKeyWait = s.atKeyWait := rfl
@[simp] theorem State.raise_waitIntact (s : State) (k : ErrorKind) : (s.raise k).waitIntact = s.waitIntact := rfl
@[simp] theorem State.raise_instrGateOpen (s : State) (k : ErrorKind) : (s.raise k).instrGateOpen = s.instrGateOpen := rfl
@[simp] theorem State.raise_frameGateOpen (s : State) (k : ErrorKind) : (s.raise k).frameGateOpen = s.frameGateOpen := rfl

@[simp] theorem State.advancePc_reg (s : State) (q : Reg) : (s.advancePc).reg q = s.reg q := rfl
@[simp] theorem State.advancePc_readByte (s : State) (c : Nat) : (s.advancePc).readByte c = s.readByte c := rfl
@[simp] theorem State.advancePc_memRead (s : State) (c : Nat) : (s.advancePc).memRead c = s.memRead c := rfl
@[simp] theorem State.advancePc_pixel (s : State) (i j : Nat) : (s.advancePc).pixel i j = s.pixel i j := rfl
@[simp] theorem State.advancePc_inputs (s : State) : (s.advancePc).inputs = s.inputs := rfl
@[simp] theorem State.advancePc_effAddr (s : State) (c : Nat) : (s.advancePc).effAddr c = s.effAddr c := rfl
@[simp] theorem State.advancePc_instrGateOpen (s : State) : (s.advancePc).instrGateOpen = s.instrGateOpen := rfl
@[simp] theorem State.advancePc_frameGateOpen (s : State) : (s.advancePc).frameGateOpen = s.frameGateOpen := rfl

@[simp] theorem State.rewindPc_reg (s : State) (q : Reg) : (s.rewindPc).reg q = s.reg q := rfl
@[simp] theorem State.rewindPc_readByte (s : State) (c : Nat) : (s.rewindPc).readByte c = s.readByte c := rfl
@[simp] theorem State.rewindPc_memRead (s : State) (c : Nat) : (s.rewindPc).memRead c = s.memRead c := rfl
@[simp] theorem State.rewindPc_pixel (s : State) (i j : Nat) : (s.rewindPc).pixel i j = s.pixel i j := rfl
@[simp] theorem State.rewindPc_inputs (s : State) : (s.rewindPc).inputs = s.inputs := rfl
@[simp] theorem State.rewindPc_effAddr (s : State) (c : Nat) : (s.rewindPc).effAddr c = s.effAddr c := rfl
@[simp] theorem State.rewindPc_instrGateOpen (s : State) : (s.rewindPc).instrGateOpen = s.instrGateOpen := rfl
@[simp] theorem State.rewindPc_frameGateOpen (s : State) : (s.rewindPc).frameGateOpen = s.frameGateOpen := rfl

@[simp] theorem State.clearDisplay_reg (s : State) (q : Reg) : (s.clearDisplay).reg q = s.reg q := rfl
@[simp] theorem State.clearDisplay_readByte (s : State) (c : Nat) : (s.clearDisplay).readByte c = s.readByte c := rfl
@[simp] theorem State.clearDisplay_memRead (s : State) (c : Nat) : (s.clearDisplay).memRead c = s.memRead c := rfl
@[simp] theorem State.clearDisplay_inputs (s : State) : (s.clearDisplay).inputs = s.inputs := rfl
@[simp] theorem State.clearDisplay_effAddr (s : State) (c : Nat) : (s.clearDisplay).effAddr c = s.effAddr c := rfl
@[simp] theorem State.clearDisplay_fetchWord (s : State) : (s.clearDisplay).fetchWord = s.fetchWord := rfl
@[simp] theorem State.clearDisplay_atKeyWait (s : State) : (s.clearDisplay).atKeyWait = s.atKeyWait := rfl
@[simp] theorem State.clearDisplay_waitIntact (s : State) : (s.clearDisplay).waitIntact = s.waitIntact := rfl
@[simp] theorem State.clearDisplay_instrGateOpen (s : State) : (s.clearDisplay).instrGateOpen = s.instrGateOpen := rfl
@[simp] theorem State.clearDisplay_frameGateOpen (s : State) : (s.clearDisplay).frameGateOpen = s.frameGateOpen := rfl

@[simp] theorem State.togglePixel_reg (s : State) (x y : Nat) (q : Reg) : (s.togglePixel x y).reg q = s.reg q := rfl
@[simp] theorem State.togglePixel_readByte (s : State) (x y : Nat) (c : Nat) : (s.togglePixel x y).readByte c = s.readByte c := rfl
@[simp] theorem State.togglePixel_memRead (s : State) (x y : Nat) (c : Nat) : (s.togglePixel x y).memRead c = s.memRead c := rfl
@[simp] theorem State.togglePixel_inputs (s : State) (x y : Nat) : (s.togglePixel x y).inputs = s.inputs := rfl
@[simp] theorem State.togglePixel_effAddr (s : State) (x y : Nat) (c : Nat) : (s.togglePixel x y).effAddr c = s.effAddr c := rfl
@[simp] theorem State.togglePixel_fetchWord (s : State) (x y : Nat) : (s.togglePixel x y).fetchWord = s.fetchWord := rfl
@[simp] theorem State.togglePixel_atKeyWait (s : State) (x y : Nat) : (s.togglePixel x y).atKeyWait = s.atKeyWait := rfl
@[simp] theorem State.togglePixel_waitIntact (s : State) (x y : Nat) : (s.togglePixel x y).waitIntact = s.waitIntact := rfl
@[simp] theorem State.togglePixel_instrGateOpen (s : State) (x y : Nat) : (s.togglePixel x y).instrGateOpen = s.instrGateOpen := rfl
@[simp] theorem State.togglePixel_frameGateOpen (s : State) (x y : Nat) : (s.togglePixel x y).frameGateOpen = s.frameGateOpen := rfl

@[simp] theorem State.timerTick_reg (s : State) (q : Reg) : (s.timerTick).reg q = s.reg q := rfl
@[simp] theorem State.timerTick_readByte (s : State) (c : Nat) : (s.timerTick).readByte c = s.readByte c := rfl
@[simp] theorem State.timerTick_memRead (s : State) (c : Nat) : (s.timerTick).memRead c = s.memRead c := rfl
@[simp] theorem State.timerTick_pixel (s : State) (i j : Nat) : (s.timerTick).pixel i j = s.pixel i j := rfl
@[simp] theorem State.timerTick_inputs (s : State) : (s.timerTick).inputs = s.inputs := rfl
@[simp] theorem State.timerTick_effAddr (s : State) (c : Nat) : (s.timerTick).effAddr c = s.effAddr c := rfl
@[simp] theorem State.timerTick_fetchWord (s : State) : (s.timerTick).fetchWord = s.fetchWord := rfl
@[simp] theorem State.timerTick_atKeyWait (s : State) : (s.timerTick).atKeyWait = s.atKeyWait := rfl
@[simp] theorem State.timerTick_waitIntact (s : State) : (s.timerTick).waitIntact = s.waitIntact := rfl
@[simp] theorem State.timerTick_instrGateOpen (s : State) : (s.timerTick).instrGateOpen = s.instrGateOpen := rfl
@[simp] theorem State.timerTick_frameGateOpen (s : State) : (s.timerTick).frameGateOpen = s.frameGateOpen := rfl

@[simp] theorem State.admitInstr_reg (s : State) (q : Reg) : (s.admitInstr).reg q = s.reg q := rfl
@[simp] theorem State.admitInstr_readByte (s : State) (c : Nat) : (s.admitInstr).readByte c = s.readByte c := rfl
@[simp] theorem State.admitInstr_memRead (s : State) (c : Nat) : (s.admitInstr).memRead c = s.memRead c := rfl
@[simp] theorem State.admitInstr_pixel (s : State) (i j : Nat) : (s.admitInstr).pixel i j = s.pixel i j := rfl
@[simp] theorem State.admitInstr_inputs (s : State) : (s.admitInstr).inputs = s.inputs := rfl
@[simp] theorem State.admitInstr_effAddr (s : State) (c : Nat) : (s.admitInstr).effAddr c = s.effAddr c := rfl
@[simp] theorem State.admitInstr_fetchWord (s : State) : (s.admitInstr).fetchWord = s.fetchWord := rfl
@[simp] theorem State.admitInstr_atKeyWait (s : State) : (s.admitInstr).atKeyWait = s.atKeyWait := rfl
@[simp] theorem State.admitInstr_waitIntact (s : State) : (s.admitInstr).waitIntact = s.waitIntact := rfl
@[simp] theorem State.admitInstr_frameGateOpen (s : State) : (s.admitInstr).frameGateOpen = s.frameGateOpen := rfl

@[simp] theorem State.endPoll_reg (s : State) (q : Reg) : (s.endPoll).reg q = s.reg q := rfl
@[simp] theorem State.endPoll_readByte (s : State) (c : Nat) : (s.endPoll).readByte c = s.readByte c := rfl
@[simp] theorem State.endPoll_memRead (s : State) (c : Nat) : (s.endPoll).memRead c = s.memRead c := rfl
@[simp] theorem State.endPoll_pixel (s : State) (i j : Nat) : (s.endPoll).pixel i j = s.pixel i j := rfl
@[simp] theorem State.endPoll_effAddr (s : State) (c : Nat) : (s.endPoll).effAddr c = s.effAddr c := rfl
@[simp] theorem State.endPoll_fetchWord (s : State) : (s.endPoll).fetchWord = s.fetchWord := rfl
@[simp] theorem State.endPoll_atKeyWait (s : State) : (s.endPoll).atKeyWait = s.atKeyWait := rfl
@[simp] theorem State.endPoll_waitIntact (s : State) : (s.endPoll).waitIntact = s.waitIntact := rfl

@[simp] theorem State.endLoad_reg (s : State) (q : Reg) : (s.endLoad).reg q = s.reg q := rfl
@[simp] theorem State.endLoad_readByte (s : State) (c : Nat) : (s.endLoad).readByte c = s.readByte c := rfl
@[simp] theorem State.endLoad_memRead (s : State) (c : Nat) : (s.endLoad).memRead c = s.memRead c := rfl
@[simp] theorem State.endLoad_pixel (s : State) (i j : Nat) : (s.endLoad).pixel i j = s.pixel i j := rfl
@[simp] theorem State.endLoad_effAddr (s : State) (c : Nat) : (s.endLoad).effAddr c = s.effAddr c := rfl
@[simp] theorem State.endLoad_fetchWord (s : State) : (s.endLoad).fetchWord = s.fetchWord := rfl
@[simp] theorem State.endLoad_atKeyWait (s : State) : (s.endLoad).atKeyWait = s.atKeyWait := rfl
@[simp] theorem State.endLoad_waitIntact (s : State) : (s.endLoad).waitIntact = s.waitIntact := rfl

/-- The inputs of a Poll the environment's list names. -/
@[simp] theorem State.inputs_setEvents_poll (s : State) (a : Inputs) (es : List Event) :
    (s.setEvents (.poll a :: es)).inputs = a := rfl

/-- The first statement of a shift does not depend on the events to come. -/
theorem shiftSource_setEvents (x y : Reg) (s : State) (es : List Event) :
    shiftSource x y (s.setEvents es) = (shiftSource x y s).setEvents es := by
  show (if s.params.shiftUsesVy then (s.setEvents es).setReg x (s.reg y) else s.setEvents es) =
    (if s.params.shiftUsesVy then s.setReg x (s.reg y) else s).setEvents es
  cases s.params.shiftUsesVy <;> rfl

/-! ### A register after a register write (R11, R21) -/

@[simp] theorem State.reg_setReg (s : State) (r q : Reg) (b : Byte) :
    (s.setReg r b).reg q = if q = r then b else s.reg q := by
  simp [State.reg, State.setReg, Vector.getElem_set, Fin.ext_iff, eq_comm]

theorem State.reg_setReg_self (s : State) (r : Reg) (b : Byte) : (s.setReg r b).reg r = b := by simp

theorem State.reg_setReg_of_ne (s : State) {r q : Reg} (b : Byte) (h : q ≠ r) :
    (s.setReg r b).reg q = s.reg q := by simp [h]

@[simp] theorem State.spriteX_setReg_of_ne (s : State) {r q : Reg} (b : Byte) (h : q ≠ r) :
    (s.setReg r b).spriteX q = s.spriteX q := by simp [State.spriteX, h]

@[simp] theorem State.spriteY_setReg_of_ne (s : State) {r q : Reg} (b : Byte) (h : q ≠ r) :
    (s.setReg r b).spriteY q = s.spriteY q := by simp [State.spriteY, h]

/-! ### A skip (R120) -/

@[simp] theorem State.skipIf_true (s : State) : s.skipIf true = s.advancePc := rfl

@[simp] theorem State.skipIf_false (s : State) : s.skipIf false = s := rfl

theorem State.skipIf_pc (s : State) (c : Bool) : (s.skipIf c).pc = if c then s.pc + 2 else s.pc := by
  cases c <;> rfl

/-- A skip changes `pc` alone. -/
theorem State.skipIf_eq (s : State) (c : Bool) : s.skipIf c = s.setPc (if c then s.pc + 2 else s.pc) := by
  cases c <;> rfl

end Sys2Proof.Machine
end

