-- ==== Sys2Proof/Laws/Display.lean ====
section
/-! SUPPORT. What drawing does (R182, R183, R185): one toggle, one row, all rows. -/

namespace Sys2Proof.Machine

/-- One pixel toggled: that pixel inverted, every other as before. -/
theorem State.pixel_togglePixel (s : State) (x y i j : Nat) (hs : displayShape s) (hx : x < s.params.dispW)
    (hy : y < s.params.dispH) :
    (s.togglePixel x y).pixel i j = if i = x ∧ j = y then !s.pixel x y else s.pixel i j := by
  obtain ⟨hl, hr⟩ := hs
  have hy' : y < s.disp.length := by omega
  have hrow : (s.disp[y]).length = s.params.dispW := hr _ (List.getElem_mem hy')
  by_cases hj : j = y
  · subst hj
    have hx' : x < (s.disp[j]).length := by omega
    by_cases hi : i = x
    · subst hi
      simp [State.pixel, List.getD, hy', hx']
    · simp [State.pixel, List.getD, hy', hi, Ne.symm hi]
  · simp [State.pixel, List.getD, hj, Ne.symm hj]

/-- A toggle keeps the size of the grid. -/
theorem State.togglePixel_shape (s : State) (x y : Nat) (hs : displayShape s) :
    displayShape (s.togglePixel x y) := by
  obtain ⟨hl, hr⟩ := hs
  refine ⟨by simpa using hl, ?_⟩
  intro row hrow
  simp only [State.togglePixel_disp, State.togglePixel_params] at *
  obtain ⟨k, hk, rfl⟩ := List.mem_iff_getElem.mp hrow
  rw [List.getElem_modify]
  split
  · simpa using hr _ (List.getElem_mem _)
  · exact hr _ (List.getElem_mem _)

/-- One sprite bit writes VF and the display alone. -/
theorem drawBit_eq (x y : Nat) (s : State) : ∃ v d, drawBit x y s = { s with V := v, disp := d } :=
  ⟨_, _, rfl⟩

/-- Drawing columns writes registers and the display alone. -/
theorem drawCols_eq (xPos y : Nat) (row : Byte) : ∀ (cs : List Nat) (s : State),
    ∃ v d, drawCols xPos y row cs s = { s with V := v, disp := d }
  | [], s => ⟨s.V, s.disp, rfl⟩
  | c :: cs, s => by
    unfold drawCols
    split
    · exact ⟨s.V, s.disp, rfl⟩
    · split
      · obtain ⟨v, d, h⟩ := drawCols_eq xPos y row cs (drawBit (xPos + c) y s)
        exact ⟨v, d, h⟩
      · exact drawCols_eq xPos y row cs s

/-- Drawing rows writes registers and the display, and the latch when a row is out of range. -/
theorem drawRows_eq (xPos yPos : Nat) : ∀ (is : List Nat) (s : State),
    ∃ v d, drawRows xPos yPos is s = { s with V := v, disp := d } ∨
      drawRows xPos yPos is s = ({ s with V := v, disp := d } : State).raise .memoryOutOfBounds
  | [], s => ⟨s.V, s.disp, .inl rfl⟩
  | i :: is, s => by
    unfold drawRows
    split
    · exact ⟨s.V, s.disp, .inl rfl⟩
    · split
      · rename_i row _
        obtain ⟨v, d, h⟩ := drawCols_eq xPos (yPos + i) row (List.range 8) s
        obtain ⟨v', d', h'⟩ := drawRows_eq xPos yPos is (drawCols xPos (yPos + i) row (List.range 8) s)
        refine ⟨v', d', ?_⟩
        rw [h] at h' ⊢
        exact h'
      · exact ⟨s.V, s.disp, .inr rfl⟩

/-- One sprite bit: its pixel inverted, VF 1 if the pixel was on. -/
theorem drawBit_spec (x y : Nat) (s : State) (hs : displayShape s) (hx : x < s.params.dispW)
    (hy : y < s.params.dispH) :
    displayShape (drawBit x y s) ∧ (∀ r, r ≠ VF → (drawBit x y s).reg r = s.reg r) ∧
    (∀ i j, (drawBit x y s).pixel i j = if i = x ∧ j = y then !s.pixel x y else s.pixel i j) ∧
    (drawBit x y s).reg VF = if s.pixel x y then 1 else s.reg VF := by
  refine ⟨State.togglePixel_shape _ x y hs, ?_, ?_, ?_⟩
  · intro r hr; simp [drawBit, hr]
  · intro i j
    exact State.pixel_togglePixel (s.setReg VF _) x y i j hs hx hy
  · simp [drawBit, collisionFlag]

/-- The columns of one sprite row: each unclipped bit of 1 inverts its pixel; VF is 1 if one of them was on. -/
theorem drawCols_spec (xPos y : Nat) (row : Byte) : ∀ (cs : List Nat) (s : State), displayShape s →
    y < s.params.dispH → cs.Pairwise (· < ·) →
    displayShape (drawCols xPos y row cs s) ∧
    (∀ r, r ≠ VF → (drawCols xPos y row cs s).reg r = s.reg r) ∧
    (∀ i j, (drawCols xPos y row cs s).pixel i j = xor (s.pixel i j)
      (decide (j = y ∧ i < s.params.dispW ∧ ∃ c ∈ cs, i = xPos + c ∧ row.getLsbD (7 - c) = true))) ∧
    (drawCols xPos y row cs s).reg VF =
      if ∃ c ∈ cs, xPos + c < s.params.dispW ∧ row.getLsbD (7 - c) = true ∧ s.pixel (xPos + c) y = true then 1
      else s.reg VF
  | [], s, hs, _, _ => ⟨hs, fun _ _ => rfl, by simp [drawCols], by simp [drawCols]⟩
  | c :: cs, s, hs, hy, hp => by
    obtain ⟨hc, hcs⟩ := List.pairwise_cons.mp hp
    unfold drawCols
    split
    · rename_i hclip
      have none : ∀ d ∈ c :: cs, ¬ xPos + d < s.params.dispW := by
        intro d hd
        rcases List.mem_cons.mp hd with rfl | hd
        · omega
        · have := hc d hd; omega
      refine ⟨hs, fun _ _ => rfl, ?_, ?_⟩
      · intro i j
        have : ¬ (j = y ∧ i < s.params.dispW ∧ ∃ d ∈ c :: cs, i = xPos + d ∧ row.getLsbD (7 - d) = true) := by
          rintro ⟨-, hi, d, hd, rfl, -⟩; exact none d hd hi
        simp only [this, decide_false, Bool.xor_false]
      · rw [if_neg]
        rintro ⟨d, hd, hi, -⟩; exact none d hd hi
    · rename_i hclip
      have hx : xPos + c < s.params.dispW := by omega
      by_cases hbit : row.getLsbD (7 - c) = true
      · rw [if_pos hbit]
        obtain ⟨b1, b2, b3, b4⟩ := drawBit_spec (xPos + c) y s hs hx hy
        have hpar : (drawBit (xPos + c) y s).params = s.params := rfl
        obtain ⟨r1, r2, r3, r4⟩ := drawCols_spec xPos y row cs (drawBit (xPos + c) y s) b1 hy hcs
        rw [hpar] at r3 r4
        refine ⟨r1, fun r hr => (r2 r hr).trans (b2 r hr), ?_, ?_⟩
        · intro i j
          rw [r3, b3]
          by_cases hij : i = xPos + c ∧ j = y
          · obtain ⟨rfl, rfl⟩ := hij
            have hno : ¬ (∃ d ∈ cs, xPos + c = xPos + d ∧ row.getLsbD (7 - d) = true) := by
              rintro ⟨d, hd, he, -⟩; have := hc d hd; omega
            rw [decide_eq_false fun h => hno h.2.2, decide_eq_true ⟨rfl, hx, c, by simp, rfl, hbit⟩]
            simp
          · have : (j = y ∧ i < s.params.dispW ∧ ∃ d ∈ c :: cs, i = xPos + d ∧ row.getLsbD (7 - d) = true) ↔
                (j = y ∧ i < s.params.dispW ∧ ∃ d ∈ cs, i = xPos + d ∧ row.getLsbD (7 - d) = true) := by
              constructor
              · rintro ⟨hj, hi, d, hd, he, hb⟩
                rcases List.mem_cons.mp hd with rfl | hd
                · exact absurd ⟨he, hj⟩ hij
                · exact ⟨hj, hi, d, hd, he, hb⟩
              · rintro ⟨hj, hi, d, hd, he, hb⟩
                exact ⟨hj, hi, d, List.mem_cons_of_mem _ hd, he, hb⟩
            simp only [this, if_neg hij]
        · rw [r4, b4]
          have same : ∀ d ∈ cs, (drawBit (xPos + c) y s).pixel (xPos + d) y = s.pixel (xPos + d) y := by
            intro d hd
            rw [b3, if_neg]
            rintro ⟨h, -⟩; have := hc d hd; omega
          by_cases hpix : s.pixel (xPos + c) y = true
          · have : ∃ d ∈ c :: cs, xPos + d < s.params.dispW ∧ row.getLsbD (7 - d) = true ∧
                s.pixel (xPos + d) y = true := ⟨c, by simp, hx, hbit, hpix⟩
            rw [if_pos this, if_pos hpix]; split <;> rfl
          · rw [if_neg hpix]
            congr 1
            refine propext ⟨?_, ?_⟩
            · rintro ⟨d, hd, h1, h2, h3⟩
              exact ⟨d, List.mem_cons_of_mem _ hd, h1, h2, (same d hd) ▸ h3⟩
            · rintro ⟨d, hd, h1, h2, h3⟩
              rcases List.mem_cons.mp hd with rfl | hd
              · exact absurd h3 hpix
              · exact ⟨d, hd, h1, h2, (same d hd).symm ▸ h3⟩
      · rw [if_neg hbit]
        obtain ⟨r1, r2, r3, r4⟩ := drawCols_spec xPos y row cs s hs hy hcs
        refine ⟨r1, r2, ?_, ?_⟩
        · intro i j
          rw [r3]
          simp [hbit]
        · rw [r4]
          simp [hbit]

/-- A sprite bit of 1 of the rows `is` is drawn on pixel (i, j). -/
def rowsOn (s : State) (xPos yPos : Nat) (is : List Nat) (i j : Nat) : Prop :=
  i < s.params.dispW ∧ j < s.params.dispH ∧ ∃ k ∈ is, j = yPos + k ∧ ∃ c ∈ List.range 8, i = xPos + c ∧
    (s.readByte (s.effAddr k)).getLsbD (7 - c) = true

/-- The rows of a sprite, none of which is out of range: each unclipped bit of 1 inverts its pixel; VF is 1 if
one of them was on. -/
theorem drawRows_spec (xPos yPos : Nat) : ∀ (is : List Nat) (s : State), displayShape s →
    is.Pairwise (· < ·) → (∀ k ∈ is, yPos + k < s.params.dispH → s.effAddr k < memSize) →
    (∃ v d, drawRows xPos yPos is s = { s with V := v, disp := d }) ∧
    displayShape (drawRows xPos yPos is s) ∧
    (∀ r, r ≠ VF → (drawRows xPos yPos is s).reg r = s.reg r) ∧
    (∀ i j, (drawRows xPos yPos is s).pixel i j = true ↔
      ¬ (s.pixel i j = true ↔ rowsOn s xPos yPos is i j)) ∧
    ((∃ i j, rowsOn s xPos yPos is i j ∧ s.pixel i j = true) → (drawRows xPos yPos is s).reg VF = 1) ∧
    ((¬ ∃ i j, rowsOn s xPos yPos is i j ∧ s.pixel i j = true) →
      (drawRows xPos yPos is s).reg VF = s.reg VF)
  | [], s, hs, _, _ => ⟨⟨s.V, s.disp, rfl⟩, hs, fun _ _ => rfl, by simp [drawRows, rowsOn],
      by simp [rowsOn], fun _ => rfl⟩
  | k :: is, s, hs, hp, hm => by
    obtain ⟨hk, his⟩ := List.pairwise_cons.mp hp
    unfold drawRows
    split
    · rename_i hclip
      have none : ∀ i j, ¬ rowsOn s xPos yPos (k :: is) i j := by
        rintro i j ⟨-, hj, d, hd, rfl, -⟩
        rcases List.mem_cons.mp hd with rfl | hd
        · omega
        · have := hk d hd; omega
      exact ⟨⟨s.V, s.disp, rfl⟩, hs, fun _ _ => rfl, fun i j => by simp [none], by simp [none], fun _ => rfl⟩
    · rename_i hclip
      have hy : yPos + k < s.params.dispH := by omega
      have hread : s.memRead (s.effAddr k) = some (s.readByte (s.effAddr k)) := by
        simp only [State.memRead, if_pos (hm k (by simp) hy)]
      rw [hread]
      simp only
      obtain ⟨c1, c2, c3, c4⟩ := drawCols_spec xPos (yPos + k) (s.readByte (s.effAddr k)) (List.range 8) s hs hy
        List.pairwise_lt_range
      obtain ⟨v, d, he⟩ := drawCols_eq xPos (yPos + k) (s.readByte (s.effAddr k)) (List.range 8) s
      generalize hu : drawCols xPos (yPos + k) (s.readByte (s.effAddr k)) (List.range 8) s = u at *
      have hpar : u.params = s.params := by rw [he]
      have hread' : ∀ a, u.readByte a = s.readByte a := by intro a; rw [he]; rfl
      have heff : ∀ a, u.effAddr a = s.effAddr a := by intro a; rw [he]; rfl
      have hon : ∀ i j, rowsOn u xPos yPos is i j ↔ rowsOn s xPos yPos is i j := by
        intro i j; simp only [rowsOn, hpar, hread', heff]
      obtain ⟨⟨v', d', r0⟩, r1, r2, r3, r4, r5⟩ := drawRows_spec xPos yPos is u c1 his
        (fun d hd => by rw [hpar, heff]; exact hm d (List.mem_cons_of_mem _ hd))
      have hrow : ∀ i j, rowsOn s xPos yPos is i j → j ≠ yPos + k := by
        rintro i j ⟨-, -, d, hd, rfl, -⟩; have := hk d hd; omega
      have hsplit : ∀ i j, rowsOn s xPos yPos (k :: is) i j ↔
          ((j = yPos + k ∧ i < s.params.dispW ∧ ∃ c ∈ List.range 8, i = xPos + c ∧
            (s.readByte (s.effAddr k)).getLsbD (7 - c) = true) ∨ rowsOn s xPos yPos is i j) := by
        intro i j
        constructor
        · rintro ⟨h1, h2, d, hd, h3, h4⟩
          rcases List.mem_cons.mp hd with rfl | hd
          · exact .inl ⟨h3, h1, h4⟩
          · exact .inr ⟨h1, h2, d, hd, h3, h4⟩
        · rintro (⟨rfl, h1, h4⟩ | ⟨h1, h2, d, hd, h3, h4⟩)
          · exact ⟨h1, hy, k, by simp, rfl, h4⟩
          · exact ⟨h1, h2, d, List.mem_cons_of_mem _ hd, h3, h4⟩
      refine ⟨⟨v', d', by rw [r0, he]⟩, r1, fun r hr => (r2 r hr).trans (c2 r hr), ?_, ?_, ?_⟩
      · intro i j
        rw [r3, hon, c3, hsplit]
        by_cases hA : j = yPos + k ∧ i < s.params.dispW ∧ ∃ c ∈ List.range 8, i = xPos + c ∧
            (s.readByte (s.effAddr k)).getLsbD (7 - c) = true
        · have hB : ¬ rowsOn s xPos yPos is i j := fun h => hrow i j h hA.1
          rw [decide_eq_true hA, eq_true (Or.inl hA : _ ∨ rowsOn s xPos yPos is i j)]
          cases s.pixel i j <;> simp [hB]
        · rw [decide_eq_false hA, or_iff_right hA]
          cases s.pixel i j <;> simp
      · rintro ⟨i, j, h1, h2⟩
        rcases (hsplit i j).mp h1 with ⟨rfl, hi, c, hc, rfl, hb⟩ | h1
        · have hu1 : u.reg VF = 1 := by rw [c4, if_pos ⟨c, hc, hi, hb, h2⟩]
          by_cases hex : ∃ i j, rowsOn u xPos yPos is i j ∧ u.pixel i j = true
          · exact r4 hex
          · rw [r5 hex, hu1]
        · refine r4 ⟨i, j, (hon i j).mpr h1, ?_⟩
          rw [c3, h2]
          simp [hrow i j h1]
      · intro hno
        rw [r5, c4, if_neg]
        · rintro ⟨c, hc, hi, hb, hpix⟩
          exact hno ⟨xPos + c, yPos + k, (hsplit _ _).mpr (.inl ⟨rfl, hi, c, hc, rfl, hb⟩), hpix⟩
        · rintro ⟨i, j, h1, h2⟩
          have h1' := (hon i j).mp h1
          refine hno ⟨i, j, (hsplit i j).mpr (.inr h1'), ?_⟩
          rw [c3] at h2
          simpa [hrow i j h1'] using h2

/-! ### In every state, and at a fault -/

/-- Drawing columns changes no register but VF and keeps the grid. -/
theorem drawCols_keeps (xPos y : Nat) (row : Byte) : ∀ (cs : List Nat) (s : State),
    (∀ r, r ≠ VF → (drawCols xPos y row cs s).reg r = s.reg r) ∧
    (displayShape s → displayShape (drawCols xPos y row cs s))
  | [], _ => ⟨fun _ _ => rfl, id⟩
  | c :: cs, s => by
    unfold drawCols
    split
    · exact ⟨fun _ _ => rfl, id⟩
    · obtain ⟨h1, h2⟩ := drawCols_keeps xPos y row cs (if row.getLsbD (7 - c) then drawBit (xPos + c) y s else s)
      refine ⟨fun r hr => ?_, fun hs => h2 ?_⟩
      · rw [h1 r hr]
        split
        · simp [drawBit, State.togglePixel, hr]
        · rfl
      · split
        · exact State.togglePixel_shape _ _ _ hs
        · exact hs

/-- Drawing rows changes no register but VF and keeps the grid, faulting or not. -/
theorem drawRows_keeps (xPos yPos : Nat) : ∀ (is : List Nat) (s : State),
    (∀ r, r ≠ VF → (drawRows xPos yPos is s).reg r = s.reg r) ∧
    (displayShape s → displayShape (drawRows xPos yPos is s))
  | [], _ => ⟨fun _ _ => rfl, id⟩
  | i :: is, s => by
    unfold drawRows
    split
    · exact ⟨fun _ _ => rfl, id⟩
    · split
      · rename_i row _
        obtain ⟨h1, h2⟩ := drawRows_keeps xPos yPos is (drawCols xPos (yPos + i) row (List.range 8) s)
        obtain ⟨g1, g2⟩ := drawCols_keeps xPos (yPos + i) row (List.range 8) s
        exact ⟨fun r hr => (h1 r hr).trans (g1 r hr), fun hs => h2 (g2 hs)⟩
      · exact ⟨fun _ _ => rfl, id⟩

/-- Readable rows, then one that is not: the rows before it are drawn, then the error is taken (R182, R243). -/
theorem drawRows_fault (xPos yPos : Nat) : ∀ (is js : List Nat) (k : Nat) (s : State),
    (∀ j ∈ is, yPos + j < s.params.dispH ∧ s.effAddr j < memSize) → yPos + k < s.params.dispH →
    memSize ≤ s.effAddr k →
    drawRows xPos yPos (is ++ k :: js) s = (drawRows xPos yPos is s).raise .memoryOutOfBounds
  | [], js, k, s, _, h1, h2 => by
    simp [drawRows, show ¬ s.params.dispH ≤ yPos + k by omega, State.memRead,
      show ¬ s.effAddr k < memSize by omega]
  | i :: is, js, k, s, h, h1, h2 => by
    have hi := h i (by simp)
    simp only [List.cons_append, drawRows, if_neg (show ¬ s.params.dispH ≤ yPos + i by omega), State.memRead,
      if_pos hi.2]
    obtain ⟨v, d, e⟩ := drawCols_eq xPos (yPos + i) (s.readByte (s.effAddr i)) (List.range 8) s
    apply drawRows_fault
    · intro j hj
      rw [e]
      exact h j (List.mem_cons_of_mem _ hj)
    · rw [e]
      exact h1
    · rw [e]
      exact h2

/-- Drawing columns does not depend on the events to come. -/
theorem drawCols_setEvents (es : List Event) (xPos y : Nat) (row : Byte) : ∀ (cs : List Nat) (s : State),
    drawCols xPos y row cs (s.setEvents es) = (drawCols xPos y row cs s).setEvents es
  | [], _ => rfl
  | c :: cs, s => by
    by_cases h : s.params.dispW ≤ xPos + c
    · have h' : (s.setEvents es).params.dispW ≤ xPos + c := h
      rw [drawCols, if_pos h', drawCols, if_pos h]
    · have h' : ¬ (s.setEvents es).params.dispW ≤ xPos + c := h
      rw [drawCols, if_neg h', drawCols, if_neg h]
      cases row.getLsbD (7 - c)
      · exact drawCols_setEvents es xPos y row cs s
      · exact drawCols_setEvents es xPos y row cs (drawBit (xPos + c) y s)

/-- Drawing rows does not depend on the events to come. -/
theorem drawRows_setEvents (es : List Event) (xPos yPos : Nat) : ∀ (is : List Nat) (s : State),
    drawRows xPos yPos is (s.setEvents es) = (drawRows xPos yPos is s).setEvents es
  | [], _ => rfl
  | i :: is, s => by
    by_cases h : s.params.dispH ≤ yPos + i
    · have h' : (s.setEvents es).params.dispH ≤ yPos + i := h
      rw [drawRows, if_pos h', drawRows, if_pos h]
    · have h' : ¬ (s.setEvents es).params.dispH ≤ yPos + i := h
      rw [drawRows, if_neg h', drawRows, if_neg h, State.setEvents_effAddr, State.setEvents_memRead]
      cases s.memRead (s.effAddr i) with
      | none => rfl
      | some row =>
        simp only [drawCols_setEvents]
        exact drawRows_setEvents es xPos yPos is (drawCols xPos (yPos + i) row (List.range 8) s)

end Sys2Proof.Machine
end

