-- ==== Sys2Proof/Laws/Memory.lean ====
section
/-! SUPPORT. The laws of memory (R60, R64): read after write, equal reads make equal lists, and every operation
keeps the canonical form. -/

namespace Sys2Proof.Machine

/-- An address below every listed one is not listed. -/
theorem Memory.lookup_eq_none_of_lt (a : Nat) :
    ∀ m : Memory, (∀ c ∈ m, a < c.1) → Memory.lookup a m = none
  | [], _ => rfl
  | (b, u) :: m, h => by
    have hb : b ≠ a := by have := h (b, u) (by simp); simp at this; omega
    simp only [Memory.lookup, if_neg hb]
    exact Memory.lookup_eq_none_of_lt a m fun c hc => h c (List.mem_cons_of_mem _ hc)

/-- Looking an address up after a write. -/
theorem Memory.lookup_write (p : Params) (a c : Nat) (v : Byte) :
    ∀ m : Memory, m.Pairwise (fun c d => c.1 < d.1) →
      Memory.lookup c (Memory.write p a v m) =
        if c = a then (if v = background p a then none else some v) else Memory.lookup c m
  | [], _ => by
    by_cases hv : v = background p a <;> by_cases hc : c = a <;>
      simp [Memory.write, Memory.lookup, hv, hc, eq_comm]
    omega
  | (b, u) :: m, h => by
    obtain ⟨hb, hm⟩ := List.pairwise_cons.mp h
    have ih := Memory.lookup_write p a c v m hm
    unfold Memory.write
    split
    · rename_i hab
      have hnone : Memory.lookup a ((b, u) :: m) = none :=
        Memory.lookup_eq_none_of_lt a _ (by
          intro d hd
          rcases List.mem_cons.mp hd with rfl | hd
          · exact hab
          · exact lt_trans hab (hb d hd))
      by_cases hc : c = a
      · subst hc
        by_cases hv : v = background p c <;> simp [hv, hnone, Memory.lookup]
      · by_cases hv : v = background p a <;> simp [hv, hc, Memory.lookup, Ne.symm hc]
    · split
      · rename_i hab
        subst hab
        by_cases hc : c = a
        · subst hc
          have : Memory.lookup c m = none := Memory.lookup_eq_none_of_lt c m hb
          by_cases hv : v = background p c <;> simp [hv, this, Memory.lookup]
        · by_cases hv : v = background p a <;> simp [hv, hc, Memory.lookup, Ne.symm hc]
      · rename_i hab
        by_cases hbc : b = c
        · have : c ≠ a := by omega
          simp [Memory.lookup, hbc, this]
        · simp only [Memory.lookup, if_neg hbc, ih]

/-- Reading after a write: the byte written at its address, every other byte as before (R71). -/
theorem Memory.read_write (p : Params) (a c : Nat) (v : Byte) (m : Memory)
    (h : m.Pairwise (fun c d => c.1 < d.1)) :
    Memory.read p (Memory.write p a v m) c = if c = a then v else Memory.read p m c := by
  unfold Memory.read
  rw [Memory.lookup_write p a c v m h]
  by_cases hc : c = a
  · subst hc
    by_cases hv : v = background p c <;> simp [hv]
  · simp [hc]

/-- A write leaves every other address alone, whatever the list (R71). -/
theorem Memory.lookup_write_ne (p : Params) (a c : Nat) (v : Byte) (hc : c ≠ a) :
    ∀ m : Memory, Memory.lookup c (Memory.write p a v m) = Memory.lookup c m
  | [] => by
    by_cases hv : v = background p a <;> simp [Memory.write, Memory.lookup, hv, Ne.symm hc]
  | (b, u) :: m => by
    unfold Memory.write
    split
    · split <;> simp [Memory.lookup, Ne.symm hc]
    · split
      · rename_i hab
        subst hab
        split <;> simp [Memory.lookup, Ne.symm hc]
      · simp only [Memory.lookup, Memory.lookup_write_ne p a c v hc m]

/-- A byte at an address not written reads as before, whatever the list (R71). -/
theorem State.readByte_store_ne (s : State) (a c : Nat) (v : Byte) (hc : c ≠ a) :
    (s.setMem (Memory.write s.params a v s.mem)).readByte c = s.readByte c := by
  simp only [State.readByte, Memory.read, State.setMem_mem, State.setMem_params, Memory.lookup_write_ne _ a c v hc]

/-- A write adds no address but its own. -/
theorem Memory.mem_write (p : Params) (a : Nat) (v : Byte) (d : Host.Cell) :
    ∀ m : Memory, d ∈ Memory.write p a v m → d ∈ m ∨ (d = (a, v) ∧ v ≠ background p a)
  | [], h => by
    unfold Memory.write at h
    split at h
    · simp at h
    · rename_i hv
      exact .inr ⟨by simpa using h, hv⟩
  | (b, u) :: m, h => by
    unfold Memory.write at h
    split at h
    · split at h
      · exact .inl h
      · rename_i hv
        rcases List.mem_cons.mp h with h | h
        · exact .inr ⟨h, hv⟩
        · exact .inl h
    · split at h
      · split at h
        · exact .inl (List.mem_cons_of_mem _ h)
        · rename_i hv
          rcases List.mem_cons.mp h with h | h
          · exact .inr ⟨h, hv⟩
          · exact .inl (List.mem_cons_of_mem _ h)
      · rcases List.mem_cons.mp h with h | h
        · exact .inl (by simp [h])
        · rcases Memory.mem_write p a v d m h with h | h
          · exact .inl (List.mem_cons_of_mem _ h)
          · exact .inr h

/-- A write keeps the addresses strictly rising. -/
theorem Memory.write_pairwise (p : Params) (a : Nat) (v : Byte) :
    ∀ m : Memory, m.Pairwise (fun c d => c.1 < d.1) →
      (Memory.write p a v m).Pairwise (fun c d => c.1 < d.1)
  | [], _ => by unfold Memory.write; split <;> simp
  | (b, u) :: m, h => by
    obtain ⟨hb, hm⟩ := List.pairwise_cons.mp h
    unfold Memory.write
    split
    · rename_i hab
      split
      · exact h
      · refine List.pairwise_cons.mpr ⟨?_, h⟩
        intro d hd
        rcases List.mem_cons.mp hd with rfl | hd
        · exact hab
        · exact lt_trans hab (hb d hd)
    · split
      · rename_i hab
        subst hab
        split
        · exact hm
        · exact List.pairwise_cons.mpr ⟨hb, hm⟩
      · refine List.pairwise_cons.mpr ⟨?_, Memory.write_pairwise p a v m hm⟩
        intro d hd
        rcases Memory.mem_write p a v d m hd with hd | ⟨rfl, -⟩
        · exact hb d hd
        · simp only; omega

/-- A write inside memory keeps the canonical form. -/
theorem Memory.write_wf (p : Params) (a : Nat) (v : Byte) (m : Memory) (ha : a < memSize)
    (h : Memory.wf p m) : Memory.wf p (Memory.write p a v m) := by
  refine ⟨Memory.write_pairwise p a v m h.1, ?_⟩
  intro c hc
  rcases Memory.mem_write p a v c m hc with hc | ⟨rfl, hv⟩
  · exact h.2 c hc
  · exact ⟨ha, hv⟩

/-- The memory of a reset unit is canonical. -/
theorem Memory.wf_nil (p : Params) : Memory.wf p [] := by simp [Memory.wf]

/-- `MemWrite`: it answers exactly inside memory, and then with the byte written (R64). -/
theorem State.memWrite_eq_some {s s' : State} {a : Nat} {v : Byte} (h : s.memWrite a v = some s') :
    a < memSize ∧ s' = s.setMem (Memory.write s.params a v s.mem) := by
  unfold State.memWrite at h
  split at h
  · rename_i ha
    exact ⟨ha, by simpa using h.symm⟩
  · simp at h

/-- Reading a byte after a store (R71). -/
theorem State.readByte_store (s : State) (a c : Nat) (v : Byte) (h : Memory.wf s.params s.mem) :
    (s.setMem (Memory.write s.params a v s.mem)).readByte c = if c = a then v else s.readByte c :=
  Memory.read_write s.params a c v s.mem h.1

/-- A store inside memory keeps the canonical form. -/
theorem State.store_wf (s : State) (a : Nat) (v : Byte) (ha : a < memSize) (h : Memory.wf s.params s.mem) :
    Memory.wf (s.setMem (Memory.write s.params a v s.mem)).params
      (s.setMem (Memory.write s.params a v s.mem)).mem :=
  Memory.write_wf s.params a v s.mem ha h

/-! ### Sequences of stores and loads -/

/-- All a sequence of stores can do: memory, and the latch if one is out of range. -/
theorem storeAll_cases : ∀ (l : List Host.Cell) (s : State),
    ∃ m, storeAll l s = s.setMem m ∨ storeAll l s = (s.setMem m).raise .memoryOutOfBounds
  | [], s => ⟨s.mem, .inl rfl⟩
  | (a, v) :: l, s => by
    unfold storeAll State.memWrite
    split
    · rename_i s' h
      split at h
      · obtain rfl : _ = s' := by simpa using h
        obtain ⟨m, hm⟩ := storeAll_cases l (s.setMem (Memory.write s.params a v s.mem))
        exact ⟨m, hm⟩
      · simp at h
    · exact ⟨s.mem, .inr rfl⟩

/-- A sequence of stores keeps the canonical form. -/
theorem storeAll_wf : ∀ (l : List Host.Cell) (s : State), Memory.wf s.params s.mem →
    Memory.wf (storeAll l s).params (storeAll l s).mem
  | [], _, h => h
  | (a, v) :: l, s, h => by
    unfold storeAll
    split
    · rename_i s' hs
      obtain ⟨ha, rfl⟩ := State.memWrite_eq_some hs
      exact storeAll_wf l _ (State.store_wf s a v ha h)
    · exact h

/-- Stores that are all in range do not raise. -/
theorem storeAll_in_range : ∀ (l : List Host.Cell) (s : State), (∀ c ∈ l, c.1 < memSize) →
    ∃ m, storeAll l s = s.setMem m
  | [], s, _ => ⟨s.mem, rfl⟩
  | (a, v) :: l, s, h => by
    have ha : a < memSize := h (a, v) (by simp)
    obtain ⟨m, hm⟩ := storeAll_in_range l (s.setMem (Memory.write s.params a v s.mem))
      fun c hc => h c (List.mem_cons_of_mem _ hc)
    exact ⟨m, by simp only [storeAll, State.memWrite, ha, if_true]; exact hm⟩

/-- Stores one of which is out of range raise `MemoryOutOfBounds`. -/
theorem storeAll_out_of_range : ∀ (l : List Host.Cell) (s : State), (∃ c ∈ l, memSize ≤ c.1) →
    ∃ m, storeAll l s = (s.setMem m).raise .memoryOutOfBounds
  | [], _, h => by simp at h
  | (a, v) :: l, s, h => by
    by_cases ha : a < memSize
    · obtain ⟨m, hm⟩ := storeAll_out_of_range l (s.setMem (Memory.write s.params a v s.mem)) (by
        obtain ⟨c, hc, hr⟩ := h
        rcases List.mem_cons.mp hc with rfl | hc
        · simp only at hr; omega
        · exact ⟨c, hc, hr⟩)
      exact ⟨m, by simp only [storeAll, State.memWrite, ha, if_true]; exact hm⟩
    · exact ⟨s.mem, by simp only [storeAll, State.memWrite, ha]; rfl⟩

/-- A byte no store of the sequence names is unchanged. -/
theorem storeAll_readByte_of_not_mem : ∀ (l : List Host.Cell) (s : State) (c : Nat),
    (∀ d ∈ l, d.1 ≠ c) → (storeAll l s).readByte c = s.readByte c
  | [], _, _, _ => rfl
  | (a, v) :: l, s, c, h => by
    unfold storeAll
    split
    · rename_i s' hs
      obtain ⟨-, rfl⟩ := State.memWrite_eq_some hs
      rw [storeAll_readByte_of_not_mem l _ c fun d hd => h d (List.mem_cons_of_mem _ hd)]
      exact State.readByte_store_ne s a c v (h (a, v) (by simp)).symm
    · rfl

/-- The k-th store of a sequence to different, rising addresses lands when its address is in range. -/
theorem storeAll_readByte_of_mem : ∀ (l : List Host.Cell) (s : State) (c : Nat) (v : Byte),
    Memory.wf s.params s.mem → l.Pairwise (fun d e => d.1 < e.1) → (c, v) ∈ l → c < memSize →
    (storeAll l s).readByte c = v
  | [], _, _, _, _, _, h, _ => by simp at h
  | (a, u) :: l, s, c, v, hw, hp, hm, hc => by
    obtain ⟨ha, hl⟩ := List.pairwise_cons.mp hp
    rcases List.mem_cons.mp hm with heq | hm
    · obtain ⟨rfl, rfl⟩ : c = a ∧ v = u := by simpa using heq
      simp only [storeAll, State.memWrite, hc, if_true]
      rw [storeAll_readByte_of_not_mem l _ c
        (fun d hd => by have := ha d hd; simp only at this; omega), State.readByte_store s c c v hw]
      simp
    · have hlt : a < c := ha (c, v) hm
      have ham : a < memSize := by omega
      simp only [storeAll, State.memWrite, ham, if_true]
      exact storeAll_readByte_of_mem l _ c v (State.store_wf s a u ham hw) hl hm hc

/-- All a sequence of loads can do: registers of the plan, and the latch if one is out of range. -/
theorem loadAll_cases : ∀ (l : List (Nat × Reg)) (s : State),
    ∃ v : Vector Byte 16, loadAll l s = { s with V := v } ∨
      loadAll l s = ({ s with V := v } : State).raise .memoryOutOfBounds
  | [], s => ⟨s.V, .inl rfl⟩
  | (a, r) :: l, s => by
    unfold loadAll
    split
    · rename_i b _
      obtain ⟨v, hv⟩ := loadAll_cases l (s.setReg r b)
      exact ⟨v, hv⟩
    · exact ⟨s.V, .inr rfl⟩

/-- Loads that are all in range do not raise. -/
theorem loadAll_in_range : ∀ (l : List (Nat × Reg)) (s : State), (∀ c ∈ l, c.1 < memSize) →
    ∃ v : Vector Byte 16, loadAll l s = { s with V := v }
  | [], s, _ => ⟨s.V, rfl⟩
  | (a, r) :: l, s, h => by
    have ha : a < memSize := h (a, r) (by simp)
    obtain ⟨v, hv⟩ := loadAll_in_range l (s.setReg r (s.readByte a)) fun c hc => h c (List.mem_cons_of_mem _ hc)
    exact ⟨v, by simp only [loadAll, State.memRead, ha, if_true]; exact hv⟩

/-- Loads one of which is out of range raise `MemoryOutOfBounds`. -/
theorem loadAll_out_of_range : ∀ (l : List (Nat × Reg)) (s : State), (∃ c ∈ l, memSize ≤ c.1) →
    ∃ v : Vector Byte 16, loadAll l s = ({ s with V := v } : State).raise .memoryOutOfBounds
  | [], _, h => by simp at h
  | (a, r) :: l, s, h => by
    by_cases ha : a < memSize
    · obtain ⟨v, hv⟩ := loadAll_out_of_range l (s.setReg r (s.readByte a)) (by
        obtain ⟨c, hc, hr⟩ := h
        rcases List.mem_cons.mp hc with rfl | hc
        · simp only at hr; omega
        · exact ⟨c, hc, hr⟩)
      exact ⟨v, by simp only [loadAll, State.memRead, ha, if_true]; exact hv⟩
    · exact ⟨s.V, by simp only [loadAll, State.memRead, ha]; rfl⟩

/-- A register no load of the plan names is unchanged. -/
theorem loadAll_reg_of_not_mem : ∀ (l : List (Nat × Reg)) (s : State) (q : Reg), (∀ d ∈ l, d.2 ≠ q) →
    (loadAll l s).reg q = s.reg q
  | [], _, _, _ => rfl
  | (a, r) :: l, s, q, h => by
    unfold loadAll
    split
    · have hq : q ≠ r := fun e => h (a, r) (by simp) e.symm
      rw [loadAll_reg_of_not_mem l _ q fun d hd => h d (List.mem_cons_of_mem _ hd)]
      simp [hq]
    · rfl

/-- A register the plan names once, at rising addresses, holds the byte of its address when that is in
range. -/
theorem loadAll_reg_of_mem : ∀ (l : List (Nat × Reg)) (s : State) (c : Nat) (q : Reg),
    l.Pairwise (fun d e => d.1 < e.1 ∧ d.2 ≠ e.2) → (c, q) ∈ l → c < memSize →
    (loadAll l s).reg q = s.readByte c
  | [], _, _, _, _, h, _ => by simp at h
  | (a, r) :: l, s, c, q, hp, hm, hc => by
    obtain ⟨ha, hl⟩ := List.pairwise_cons.mp hp
    rcases List.mem_cons.mp hm with heq | hm
    · obtain ⟨rfl, rfl⟩ : c = a ∧ q = r := by simpa using heq
      simp only [loadAll, State.memRead, hc, if_true]
      rw [loadAll_reg_of_not_mem l _ q fun d hd => (ha d hd).2.symm]
      simp
    · have hlt : a < c := (ha (c, q) hm).1
      have ham : a < memSize := by omega
      simp only [loadAll, State.memRead, ham, if_true]
      rw [loadAll_reg_of_mem l _ c q hl hm hc]
      rfl

/-- A register whose address is out of range is not loaded. -/
theorem loadAll_reg_of_out_of_range : ∀ (l : List (Nat × Reg)) (s : State) (c : Nat) (q : Reg),
    l.Pairwise (fun d e => d.1 < e.1 ∧ d.2 ≠ e.2) → (c, q) ∈ l → memSize ≤ c → (loadAll l s).reg q = s.reg q
  | [], _, _, _, _, h, _ => by simp at h
  | (a, r) :: l, s, c, q, hp, hm, hc => by
    obtain ⟨ha, hl⟩ := List.pairwise_cons.mp hp
    unfold loadAll State.memRead
    by_cases ham : a < memSize
    · rcases List.mem_cons.mp hm with heq | hm
      · have : c = a := (Prod.mk.inj heq).1
        omega
      · rw [if_pos ham]
        simp only
        rw [loadAll_reg_of_out_of_range l _ c q hl hm hc]
        simp [(ha (c, q) hm).2.symm]
    · rw [if_neg ham]
      rfl

/-! ### The bytes of a Load (R293) -/

/-- Copying bytes inside memory keeps the canonical form. -/
theorem writeBytes_wf (p : Params) : ∀ (bs : List Byte) (a : Nat) (m : Memory), a + bs.length ≤ memSize →
    Memory.wf p m → Memory.wf p (writeBytes p a bs m)
  | [], _, _, _, h => h
  | b :: bs, a, m, ha, h => by
    simp only [List.length_cons] at ha
    exact writeBytes_wf p bs (a + 1) _ (by omega) (Memory.write_wf p a b m (by omega) h)

/-- A byte outside those copied reads as before. -/
theorem writeBytes_read_of_outside (p : Params) : ∀ (bs : List Byte) (a : Nat) (m : Memory) (c : Nat),
    c < a ∨ a + bs.length ≤ c → Memory.read p (writeBytes p a bs m) c = Memory.read p m c
  | [], _, _, _, _ => rfl
  | b :: bs, a, m, c, hc => by
    simp only [List.length_cons] at hc
    rw [writeBytes, writeBytes_read_of_outside p bs (a + 1) _ c (by omega)]
    unfold Memory.read
    rw [Memory.lookup_write_ne p a c b (by omega)]

/-- The k-th byte copied is at the k-th address. -/
theorem writeBytes_read_of_inside (p : Params) : ∀ (bs : List Byte) (a : Nat) (m : Memory) (k : Nat),
    m.Pairwise (fun c d => c.1 < d.1) → k < bs.length →
      Memory.read p (writeBytes p a bs m) (a + k) = bs.getD k 0
  | [], _, _, k, _, hk => by simp at hk
  | b :: bs, a, m, k, h, hk => by
    rw [writeBytes]
    cases k with
    | zero =>
      rw [writeBytes_read_of_outside p bs (a + 1) _ (a + 0) (by omega), Memory.read_write p a _ b m h]
      simp
    | succ k =>
      have := writeBytes_read_of_inside p bs (a + 1) (Memory.write p a b m) k
        (Memory.write_pairwise p a b m h) (by simpa using hk)
      rw [show a + (k + 1) = a + 1 + k by omega, this]
      simp

end Sys2Proof.Machine
end

