-- ==== Sys2Proof/Laws/Operands.lean ====
section
/-! SUPPORT. What the operand forms of the memory transfers are (R223 to R227): which registers, which cells, in
rising order. -/

namespace Sys2Proof.Machine

/-- The registers 0 to X. -/
theorem mem_regsTo (x j : Reg) : j ∈ regsTo x ↔ j ≤ x := by
  revert x j
  decide

/-- The registers 0 to X come in rising order. -/
theorem regsTo_pairwise (x : Reg) : (regsTo x).Pairwise (· < ·) := by
  revert x
  decide

/-- The bytes a storing instruction names. -/
theorem mem_bytesAtI (s : State) (n a : Nat) : Elem.byte a ∈ bytesAtI s n ↔ ∃ k < n, s.effAddr k = a := by
  simp [bytesAtI]

/-- The cells of `FX33`, written out. -/
theorem State.bcdCells_eq (s : State) (x : Reg) : s.bcdCells x =
    [(s.effAddr 0, BitVec.ofNat 8 ((s.reg x).toNat / 100)),
     (s.effAddr 1, BitVec.ofNat 8 ((s.reg x).toNat / 10 % 10)),
     (s.effAddr 2, BitVec.ofNat 8 ((s.reg x).toNat % 10))] := by
  simp [State.bcdCells, bcdDigits, List.range_succ]

/-- The cells of `FX33` rise. -/
theorem State.bcdCells_pairwise (s : State) (x : Reg) : (s.bcdCells x).Pairwise (fun d e => d.1 < e.1) := by
  rw [State.bcdCells_eq]
  simp [State.effAddr]

/-- A cell of `FX55`: register j at `I + j`, for j up to X. -/
theorem State.mem_dumpCells (s : State) (x : Reg) (c : Host.Cell) :
    c ∈ s.dumpCells x ↔ ∃ j, j ≤ x ∧ c = (s.effAddr j.val, s.reg j) := by
  simp [State.dumpCells, mem_regsTo, eq_comm]

/-- The cells of `FX55` rise. -/
theorem State.dumpCells_pairwise (s : State) (x : Reg) : (s.dumpCells x).Pairwise (fun d e => d.1 < e.1) := by
  rw [State.dumpCells, List.pairwise_map]
  refine (regsTo_pairwise x).imp fun {a b} h => ?_
  have : a.val < b.val := h
  simp only [State.effAddr]
  omega

/-- A load of `FX65`: register j from `I + j`, for j up to X. -/
theorem State.mem_loadPlan (s : State) (x : Reg) (c : Nat × Reg) :
    c ∈ s.loadPlan x ↔ ∃ j, j ≤ x ∧ c = (s.effAddr j.val, j) := by
  simp [State.loadPlan, mem_regsTo, eq_comm]

/-- The loads of `FX65` rise, each of its own register. -/
theorem State.loadPlan_pairwise (s : State) (x : Reg) :
    (s.loadPlan x).Pairwise (fun d e => d.1 < e.1 ∧ d.2 ≠ e.2) := by
  rw [State.loadPlan, List.pairwise_map]
  refine (regsTo_pairwise x).imp fun {a b} h => ⟨?_, ne_of_lt h⟩
  have : a.val < b.val := h
  simp only [State.effAddr]
  omega

/-- The cells of `FX33` are the three bytes at `I`. -/
theorem State.bcdCells_at (s : State) (x : Reg) : ∀ d ∈ s.bcdCells x, Elem.byte d.1 ∈ bytesAtI s 3 := by
  intro d hd
  rw [State.bcdCells_eq] at hd
  rw [mem_bytesAtI]
  simp only [List.mem_cons, List.not_mem_nil, or_false] at hd
  rcases hd with rfl | rfl | rfl
  · exact ⟨0, by omega, rfl⟩
  · exact ⟨1, by omega, rfl⟩
  · exact ⟨2, by omega, rfl⟩

/-- The cells of `FX55` are the X + 1 bytes at `I`. -/
theorem State.dumpCells_at (s : State) (x : Reg) :
    ∀ d ∈ s.dumpCells x, Elem.byte d.1 ∈ bytesAtI s (x.val + 1) := by
  intro d hd
  obtain ⟨j, hj, rfl⟩ := (s.mem_dumpCells x d).mp hd
  have : j.val ≤ x.val := hj
  exact (mem_bytesAtI s _ _).mpr ⟨j.val, by omega, rfl⟩

/-- A sequence of stores writes the bytes it names and, at an error, what `raise` writes. -/
theorem storeAll_frame (l : List Host.Cell) (s : State) (xs : List Elem) (h : ∀ d ∈ l, Elem.byte d.1 ∈ xs) :
    Frame (xs ++ raised) s (storeAll l s) := by
  intro e he
  simp only [List.mem_append, not_or] at he
  obtain ⟨m, hm | hm⟩ := storeAll_cases l s
  all_goals
    cases e with
    | byte a => exact storeAll_readByte_of_not_mem l s a (fun d hd e => he.1 (e ▸ h d hd))
    | fault => simp [raised] at he
    | stepGate => simp [raised] at he
    | _ => rw [hm]; simp [Elem.same]

/-- A sequence of loads writes the registers it names and, at an error, what `raise` writes. -/
theorem loadAll_frame (l : List (Nat × Reg)) (s : State) (xs : List Elem) (h : ∀ d ∈ l, Elem.reg d.2 ∈ xs) :
    Frame (xs ++ raised) s (loadAll l s) := by
  intro e he
  simp only [List.mem_append, not_or] at he
  obtain ⟨m, hm | hm⟩ := loadAll_cases l s
  all_goals
    cases e with
    | reg r => exact loadAll_reg_of_not_mem l s r (fun d hd e => he.1 (e ▸ h d hd))
    | fault => simp [raised] at he
    | stepGate => simp [raised] at he
    | _ => rw [hm]; simp [Elem.same] <;> rfl

/-- Stores do not depend on the events to come. -/
theorem storeAll_setEvents (es : List Event) : ∀ (l : List Host.Cell) (s : State),
    storeAll l (s.setEvents es) = (storeAll l s).setEvents es
  | [], _ => rfl
  | (a, v) :: l, s => by
    by_cases ha : a < memSize
    · simp only [storeAll, State.memWrite, if_pos ha]
      exact storeAll_setEvents es l (s.setMem (Memory.write s.params a v s.mem))
    · simp only [storeAll, State.memWrite, if_neg ha]
      rfl

/-- Loads do not depend on the events to come. -/
theorem loadAll_setEvents (es : List Event) : ∀ (l : List (Nat × Reg)) (s : State),
    loadAll l (s.setEvents es) = (loadAll l s).setEvents es
  | [], _ => rfl
  | (a, r) :: l, s => by
    by_cases ha : a < memSize
    · simp only [loadAll, State.memRead, if_pos ha]
      exact loadAll_setEvents es l (s.setReg r (s.readByte a))
    · simp only [loadAll, State.memRead, if_neg ha]
      rfl

end Sys2Proof.Machine
end

