-- ==== Sys2Proof/Laws/PerInstr.lean ====
section
/-! SUPPORT. Statements about every instruction as syntax, one lemma a constructor: its word is selected by its
row of the opcode map (R100). -/

namespace Sys2Proof.Laws.Encoding

/-- The word of an instruction is selected by the instruction's row of the opcode map (R100). -/
def Statement (i : Instr) : Prop := i.row.selects (encode i) = true

/-- Masking all but the class of a word. -/
theorem mask_class_NNN (c : Nibble) (nnn : Imm12) : wordNNN c nnn &&& 0xF000#16 = c ++ 0#12 := by
  apply BitVec.eq_of_getLsbD_eq
  intro k hk
  simp only [wordNNN, BitVec.getLsbD_and, BitVec.getLsbD_append]
  interval_cases k <;> simp

theorem mask_class_XNN (c : Nibble) (x : Reg) (nn : Byte) : wordXNN c x nn &&& 0xF000#16 = c ++ 0#12 := by
  apply BitVec.eq_of_getLsbD_eq
  intro k hk
  simp only [wordXNN, BitVec.getLsbD_and, BitVec.getLsbD_append]
  interval_cases k <;> simp

theorem mask_class_XYN (c : Nibble) (x y : Reg) (n : Nibble) : wordXYN c x y n &&& 0xF000#16 = c ++ 0#12 := by
  apply BitVec.eq_of_getLsbD_eq
  intro k hk
  simp only [wordXYN, BitVec.getLsbD_and, BitVec.getLsbD_append]
  interval_cases k <;> simp

/-- Masking the class and N of a word. -/
theorem mask_class_N (c : Nibble) (x y : Reg) (n : Nibble) :
    wordXYN c x y n &&& 0xF00F#16 = c ++ (0#8 ++ n) := by
  apply BitVec.eq_of_getLsbD_eq
  intro k hk
  simp only [wordXYN, BitVec.getLsbD_and, BitVec.getLsbD_append]
  interval_cases k <;> simp

/-- Masking the class and NN of a word. -/
theorem mask_class_NN (c : Nibble) (x : Reg) (nn : Byte) : wordXNN c x nn &&& 0xF0FF#16 = c ++ (0#4 ++ nn) := by
  apply BitVec.eq_of_getLsbD_eq
  intro k hk
  simp only [wordXNN, BitVec.getLsbD_and, BitVec.getLsbD_append]
  interval_cases k <;> simp

theorem op00E0 : Statement .op00E0 := by
  simp [Statement, OpcodeRow.selects, Instr.row, encode]

theorem op00EE : Statement .op00EE := by
  simp [Statement, OpcodeRow.selects, Instr.row, encode]

theorem op1NNN (nnn : Imm12) : Statement (.op1NNN nnn) := by
  simp [Statement, OpcodeRow.selects, Instr.row, encode, mask_class_NNN]

theorem op2NNN (nnn : Imm12) : Statement (.op2NNN nnn) := by
  simp [Statement, OpcodeRow.selects, Instr.row, encode, mask_class_NNN]

theorem op3XNN (x : Reg) (nn : Byte) : Statement (.op3XNN x nn) := by
  simp [Statement, OpcodeRow.selects, Instr.row, encode, mask_class_XNN]

theorem op4XNN (x : Reg) (nn : Byte) : Statement (.op4XNN x nn) := by
  simp [Statement, OpcodeRow.selects, Instr.row, encode, mask_class_XNN]

theorem op5XY0 (x y : Reg) : Statement (.op5XY0 x y) := by
  simp [Statement, OpcodeRow.selects, Instr.row, encode, mask_class_XYN]

theorem op6XNN (x : Reg) (nn : Byte) : Statement (.op6XNN x nn) := by
  simp [Statement, OpcodeRow.selects, Instr.row, encode, mask_class_XNN]

theorem op7XNN (x : Reg) (nn : Byte) : Statement (.op7XNN x nn) := by
  simp [Statement, OpcodeRow.selects, Instr.row, encode, mask_class_XNN]

theorem op8XY0 (x y : Reg) : Statement (.op8XY0 x y) := by
  simp [Statement, OpcodeRow.selects, Instr.row, encode, mask_class_N]

theorem op8XY1 (x y : Reg) : Statement (.op8XY1 x y) := by
  simp [Statement, OpcodeRow.selects, Instr.row, encode, mask_class_N]

theorem op8XY2 (x y : Reg) : Statement (.op8XY2 x y) := by
  simp [Statement, OpcodeRow.selects, Instr.row, encode, mask_class_N]

theorem op8XY3 (x y : Reg) : Statement (.op8XY3 x y) := by
  simp [Statement, OpcodeRow.selects, Instr.row, encode, mask_class_N]

theorem op8XY4 (x y : Reg) : Statement (.op8XY4 x y) := by
  simp [Statement, OpcodeRow.selects, Instr.row, encode, mask_class_N]

theorem op8XY5 (x y : Reg) : Statement (.op8XY5 x y) := by
  simp [Statement, OpcodeRow.selects, Instr.row, encode, mask_class_N]

theorem op8XY6 (x y : Reg) : Statement (.op8XY6 x y) := by
  simp [Statement, OpcodeRow.selects, Instr.row, encode, mask_class_N]

theorem op8XY7 (x y : Reg) : Statement (.op8XY7 x y) := by
  simp [Statement, OpcodeRow.selects, Instr.row, encode, mask_class_N]

theorem op8XYE (x y : Reg) : Statement (.op8XYE x y) := by
  simp [Statement, OpcodeRow.selects, Instr.row, encode, mask_class_N]

theorem op9XY0 (x y : Reg) : Statement (.op9XY0 x y) := by
  simp [Statement, OpcodeRow.selects, Instr.row, encode, mask_class_XYN]

theorem opANNN (nnn : Imm12) : Statement (.opANNN nnn) := by
  simp [Statement, OpcodeRow.selects, Instr.row, encode, mask_class_NNN]

theorem opBNNN (nnn : Imm12) : Statement (.opBNNN nnn) := by
  simp [Statement, OpcodeRow.selects, Instr.row, encode, mask_class_NNN]

theorem opCXNN (x : Reg) (nn : Byte) : Statement (.opCXNN x nn) := by
  simp [Statement, OpcodeRow.selects, Instr.row, encode, mask_class_XNN]

theorem opDXYN (x y : Reg) (n : Nibble) : Statement (.opDXYN x y n) := by
  simp [Statement, OpcodeRow.selects, Instr.row, encode, mask_class_XYN]

theorem opEX9E (x : Reg) : Statement (.opEX9E x) := by
  simp [Statement, OpcodeRow.selects, Instr.row, encode, mask_class_NN]

theorem opEXA1 (x : Reg) : Statement (.opEXA1 x) := by
  simp [Statement, OpcodeRow.selects, Instr.row, encode, mask_class_NN]

theorem opFX07 (x : Reg) : Statement (.opFX07 x) := by
  simp [Statement, OpcodeRow.selects, Instr.row, encode, mask_class_NN]

theorem opFX0A (x : Reg) : Statement (.opFX0A x) := by
  simp [Statement, OpcodeRow.selects, Instr.row, encode, mask_class_NN]

theorem opFX15 (x : Reg) : Statement (.opFX15 x) := by
  simp [Statement, OpcodeRow.selects, Instr.row, encode, mask_class_NN]

theorem opFX18 (x : Reg) : Statement (.opFX18 x) := by
  simp [Statement, OpcodeRow.selects, Instr.row, encode, mask_class_NN]

theorem opFX1E (x : Reg) : Statement (.opFX1E x) := by
  simp [Statement, OpcodeRow.selects, Instr.row, encode, mask_class_NN]

theorem opFX29 (x : Reg) : Statement (.opFX29 x) := by
  simp [Statement, OpcodeRow.selects, Instr.row, encode, mask_class_NN]

theorem opFX33 (x : Reg) : Statement (.opFX33 x) := by
  simp [Statement, OpcodeRow.selects, Instr.row, encode, mask_class_NN]

theorem opFX55 (x : Reg) : Statement (.opFX55 x) := by
  simp [Statement, OpcodeRow.selects, Instr.row, encode, mask_class_NN]

theorem opFX65 (x : Reg) : Statement (.opFX65 x) := by
  simp [Statement, OpcodeRow.selects, Instr.row, encode, mask_class_NN]

end Sys2Proof.Laws.Encoding
end

