-- ==== Sys2Proof/Laws/Step.lean ====
section
/-! SUPPORT. Everything a step can do, one lemma per function from `exec` up to `step` (R93, R253, R290, R293), so
that no proof unfolds them. -/

namespace Sys2Proof.Machine

/-! ### Outcomes -/

/-- `onNext` answers a next state exactly from one. -/
theorem onNext_eq_next {o : Host.Outcome State Fault Refusal} {f : State → State} {t : State} :
    onNext o f = .next t ↔ ∃ u, o = .next u ∧ t = f u := by
  cases o <;> simp [onNext, eq_comm]

@[simp] theorem onNext_next (s : State) (f : State → State) :
    onNext (.next s : Host.Outcome State Fault Refusal) f = .next (f s) := rfl

/-! ### The call stack (R25) -/

/-- `00EE`: the two cases. -/
theorem exec00EE_eq (s : State) : exec00EE s =
    if 0 < s.sp then .next ((s.setStack s.stack (s.sp - 1)).setPc (s.stack.getD (s.sp - 1) 0))
    else .next (s.raise .stackUnderflow) := by
  unfold exec00EE State.pop
  by_cases h : 0 < s.sp <;> simp [h]

/-- `2NNN`: the two cases. -/
theorem exec2NNN_eq (nnn : Imm12) (s : State) : exec2NNN nnn s =
    if s.sp < s.params.stackCap then
      .next ((s.setStack (s.stack.set s.sp s.pc) (s.sp + 1)).setPc (zext12 nnn))
    else .next (s.raise .stackOverflow) := by
  unfold exec2NNN State.push
  by_cases h : s.sp < s.params.stackCap <;> simp [h]

/-! ### Instructions -/

/-- Every instruction answers a next state: every error of R240 is one. -/
theorem exec_next (i : Instr) (s : State) : ∃ t, exec i s = .next t := by
  cases i
  case op00EE => simp only [exec, exec00EE_eq]; split <;> exact ⟨_, rfl⟩
  case op2NNN => simp only [exec, exec2NNN_eq]; split <;> exact ⟨_, rfl⟩
  case opFX0A =>
    simp only [exec, execFX0A]
    split
    · split <;> exact ⟨_, rfl⟩
    · exact ⟨_, rfl⟩
  all_goals exact ⟨_, rfl⟩

/-- An instruction writes none of the pacer's stamps, parameters, strobe or environment. -/
theorem exec_keeps {i : Instr} {s t : State} (h : exec i s = .next t) :
    t.params = s.params ∧ t.tInstr = s.tInstr ∧ t.tFrame = s.tFrame ∧ t.presents = s.presents ∧
    t.events = s.events ∧ t.lastNow = s.lastNow ∧ t.polls = s.polls ∧ t.loadOpen = s.loadOpen := by
  cases i
  case op00EE =>
    simp only [exec, exec00EE_eq] at h
    split at h <;> obtain rfl := Host.Outcome.next.inj h <;> simp
  case op2NNN =>
    simp only [exec, exec2NNN_eq] at h
    split at h <;> obtain rfl := Host.Outcome.next.inj h <;> simp
  case opFX0A =>
    simp only [exec, execFX0A] at h
    split at h
    · split at h <;> obtain rfl := Host.Outcome.next.inj h <;> simp
    · obtain rfl := Host.Outcome.next.inj h; simp
  case opDXYN x y n =>
    obtain rfl := Host.Outcome.next.inj h
    obtain ⟨v, d, e | e⟩ := drawRows_eq (s.spriteX x) (s.spriteY y) (List.range n.toNat) (s.setReg VF 0) <;>
      rw [e] <;> exact ⟨rfl, rfl, rfl, rfl, rfl, rfl, rfl, rfl⟩
  case opFX33 x =>
    obtain rfl := Host.Outcome.next.inj h
    obtain ⟨m, e | e⟩ := storeAll_cases (s.bcdCells x) s <;> rw [e] <;>
      exact ⟨rfl, rfl, rfl, rfl, rfl, rfl, rfl, rfl⟩
  case opFX55 x =>
    obtain rfl := Host.Outcome.next.inj h
    obtain ⟨m, e | e⟩ := storeAll_cases (s.dumpCells x) s <;> rw [e] <;>
      exact ⟨rfl, rfl, rfl, rfl, rfl, rfl, rfl, rfl⟩
  case opFX65 x =>
    obtain rfl := Host.Outcome.next.inj h
    obtain ⟨m, e | e⟩ := loadAll_cases (s.loadPlan x) s <;> rw [e] <;>
      exact ⟨rfl, rfl, rfl, rfl, rfl, rfl, rfl, rfl⟩
  case op8XY6 | op8XYE =>
    obtain rfl := Host.Outcome.next.inj h
    simp only [shiftSource]
    split <;> simp
  all_goals
    obtain rfl := Host.Outcome.next.inj h
    try rw [State.skipIf_eq]
    simp

/-- Every instruction keeps the canonical form of memory. -/
theorem exec_wf {i : Instr} {s t : State} (h : exec i s = .next t) (hw : Memory.wf s.params s.mem) :
    Memory.wf t.params t.mem := by
  cases i
  case op00EE =>
    simp only [exec, exec00EE_eq] at h
    split at h <;> obtain rfl := Host.Outcome.next.inj h <;> exact hw
  case op2NNN =>
    simp only [exec, exec2NNN_eq] at h
    split at h <;> obtain rfl := Host.Outcome.next.inj h <;> exact hw
  case opFX0A =>
    simp only [exec, execFX0A] at h
    split at h
    · split at h <;> obtain rfl := Host.Outcome.next.inj h <;> exact hw
    · obtain rfl := Host.Outcome.next.inj h; exact hw
  case opDXYN x y n =>
    obtain rfl := Host.Outcome.next.inj h
    obtain ⟨v, d, e | e⟩ := drawRows_eq (s.spriteX x) (s.spriteY y) (List.range n.toNat) (s.setReg VF 0) <;>
      rw [e] <;> exact hw
  case opFX33 x => obtain rfl := Host.Outcome.next.inj h; exact storeAll_wf _ _ hw
  case opFX55 x => obtain rfl := Host.Outcome.next.inj h; exact storeAll_wf _ _ hw
  case opFX65 x =>
    obtain rfl := Host.Outcome.next.inj h
    obtain ⟨m, e | e⟩ := loadAll_cases (s.loadPlan x) s <;> rw [e] <;> exact hw
  case op8XY6 | op8XYE =>
    obtain rfl := Host.Outcome.next.inj h
    simp only [shiftSource]
    split <;> exact hw
  all_goals
    obtain rfl := Host.Outcome.next.inj h
    try rw [State.skipIf_eq]
    exact hw

/-! ### The instruction step (R93) -/

/-- The fetch where a word can be fetched. -/
theorem State.fetchWord_of_lt {s : State} (h : s.pc.toNat + 1 < memSize) :
    s.fetchWord = some (wordOfBytes (s.readByte s.pc.toNat) (s.readByte (s.pc.toNat + 1))) := if_pos h

/-- The fetch where none can. -/
theorem State.fetchWord_of_ge {s : State} (h : memSize ≤ s.pc.toNat + 1) : s.fetchWord = none :=
  if_neg (Nat.not_lt.mpr h)

/-- The three ways an instruction step ends in a next state. -/
theorem instrStep_cases {s t : State} (h : instrStep s = .next t) : s.waitIntact = true ∧
    ((s.fetchWord = none ∧ t = s.raise .memoryOutOfBounds) ∨
     (∃ w r, s.fetchWord = some w ∧ decodeWord w = .error r ∧ t = s.advancePc.raise .unknownInstruction) ∨
     (∃ w i u, s.fetchWord = some w ∧ decodeWord w = .ok i ∧ exec i s.advancePc = .next u ∧
       t = u.setStepGate false)) := by
  unfold instrStep at h
  split at h
  · rename_i hw
    refine ⟨hw, ?_⟩
    split at h
    · exact .inl ⟨‹_›, (Host.Outcome.next.inj h).symm⟩
    · split at h
      · obtain ⟨u, hu, rfl⟩ := onNext_eq_next.mp h
        exact .inr (.inr ⟨_, _, u, ‹_›, ‹_›, hu, rfl⟩)
      · exact .inr (.inl ⟨_, _, ‹_›, ‹_›, (Host.Outcome.next.inj h).symm⟩)
  · simp at h

/-- With no broken key wait an instruction step answers a next state. -/
theorem instrStep_next (s : State) (h : s.waitIntact = true) : ∃ t, instrStep s = .next t := by
  unfold instrStep
  rw [if_pos h]
  split
  · exact ⟨_, rfl⟩
  · split
    · obtain ⟨t, ht⟩ := exec_next _ s.advancePc
      exact ⟨_, by rw [ht]; rfl⟩
    · exact ⟨_, rfl⟩

/-! ### The Poll (R253) -/

/-- What the second half of a Poll does. -/
theorem framePhase_eq (s : State) : framePhase s =
    if s.fault = none ∧ s.frameGateOpen = true then (s.setTFrame s.inputs.now).timerTick else s := by
  unfold framePhase
  cases s.fault <;> cases s.frameGateOpen <;> simp

/-- What a Poll does when it ends in a next state. -/
theorem poll_cases {s t : State} (h : poll s = .next t) :
    (s.fault ≠ none ∧ t = s.endPoll) ∨
    (s.fault = none ∧ s.instrGateOpen = false ∧ t = (framePhase s).endPoll) ∨
    (s.fault = none ∧ s.instrGateOpen = true ∧ ∃ u, instrStep s.admitInstr = .next u ∧
      t = (framePhase u).endPoll) := by
  unfold poll at h
  split at h
  · rename_i hf
    exact .inl ⟨by intro e; simp [e] at hf, (Host.Outcome.next.inj h).symm⟩
  · rename_i hf
    have hf' : s.fault = none := by simpa using hf
    obtain ⟨u, hu, rfl⟩ := onNext_eq_next.mp h
    unfold instrPhase at hu
    split at hu
    · exact .inr (.inr ⟨hf', ‹_›, u, hu, rfl⟩)
    · rename_i hg
      obtain rfl := Host.Outcome.next.inj hu
      exact .inr (.inl ⟨hf', Bool.eq_false_of_not_eq_true hg, rfl⟩)

/-- A Poll of a halted unit. -/
theorem poll_halted {s : State} (h : s.fault ≠ none) : poll s = .next s.endPoll := by
  unfold poll
  cases hf : s.fault
  · exact absurd hf h
  · rfl

/-- A Poll whose instruction gate is closed. -/
theorem poll_closed {s : State} (h : s.fault = none) (hg : s.instrGateOpen = false) :
    poll s = .next (framePhase s).endPoll := by
  simp [poll, instrPhase, h, hg]

/-- A Poll whose instruction gate is open. -/
theorem poll_open {s : State} (h : s.fault = none) (hg : s.instrGateOpen = true) :
    poll s = onNext (instrStep s.admitInstr) fun t => (framePhase t).endPoll := by
  simp [poll, instrPhase, h, hg]

/-! ### The step -/

/-- The three events. -/
theorem step_cases {s t : State} (h : step s = .next t) : s.params.wf ∧
    ((∃ es, s.events = .reset :: es ∧ t = s.resetEvent) ∨
     (∃ rom es, s.events = .load rom :: es ∧ s.loadOpen = true ∧
       ((romFits s.params rom ∧
          t = (s.setMem (writeBytes s.params s.params.progStart rom s.mem)).endLoad) ∨
        (¬ romFits s.params rom ∧ t = (s.raise .romTooLarge).endLoad))) ∨
     (nextIsPoll s ∧ poll s = .next t)) := by
  unfold step runEvent at h
  by_cases hw : s.params.wf
  · rw [if_pos hw] at h
    refine ⟨hw, ?_⟩
    split at h
    · exact .inl ⟨_, ‹_›, (Host.Outcome.next.inj h).symm⟩
    · rename_i rom es he
      refine .inr (.inl ⟨rom, es, he, ?_⟩)
      unfold loadEvent at h
      split at h
      · refine ⟨‹_›, ?_⟩
        by_cases hf : romFits s.params rom
        · rw [if_pos hf] at h
          exact .inl ⟨hf, (Host.Outcome.next.inj h).symm⟩
        · rw [if_neg hf] at h
          exact .inr ⟨hf, (Host.Outcome.next.inj h).symm⟩
      · simp at h
    · exact .inr (.inr ⟨.inr ⟨_, _, ‹_›⟩, h⟩)
    · exact .inr (.inr ⟨.inl ‹_›, h⟩)
  · rw [if_neg hw] at h
    simp at h

/-- A step whose next event is a Poll is the Poll. -/
theorem step_poll {s : State} (hw : s.params.wf) (hp : nextIsPoll s) : step s = poll s := by
  unfold step runEvent
  rw [if_pos hw]
  rcases hp with h | ⟨i, es, h⟩ <;> rw [h]

/-- A step whose next event is Reset. -/
theorem step_reset {s : State} {es : List Event} (hw : s.params.wf) (h : s.events = .reset :: es) :
    step s = .next s.resetEvent := by
  unfold step runEvent
  rw [if_pos hw, h]

/-- A step whose next event is a Load. -/
theorem step_load {s : State} {rom : List Byte} {es : List Event} (hw : s.params.wf)
    (h : s.events = .load rom :: es) : step s = loadEvent rom s := by
  unfold step runEvent
  rw [if_pos hw, h]

end Sys2Proof.Machine
end

