-- ==== Sys2Proof/Tests/Slice0.lean ====
section
/-! SUPPORT. The model's own tests: WellFormed smoke tests, a word written out from the spec's encoding (R91, R100) for
every constructor, one-step vectors of spec/95_test_vectors.md (S<n>, T<n>), and for every obligation with
hypotheses a state and operands that meet them. Expected values come from the spec's tables, never from the
model. -/

open Sys2Proof Sys2Proof.Machine

namespace Sys2Proof.Tests

/-! ### Helpers -/

/-- A register file given by the registers that are not 0. -/
def regs (l : List (Reg × Byte)) : Vector Byte 16 :=
  l.foldl (fun v p => v.set p.1.val p.2 p.1.isLt) (Vector.replicate 16 0)

/-- The reset unit with registers and `I` set by hand, as the vectors' "before" column does. -/
def start (l : List (Reg × Byte)) (i : Word := 0) (m : Memory := []) : State :=
  { State.reset with V := regs l, I := i, mem := m }

/-- A Poll's inputs. -/
def at' (now : Nat) (valid : Bool := false) (code : Nibble := 0) (down : BitVec 16 := 0) (rnd : Byte := 0) : Inputs :=
  { now := now, keyValid := valid, keyCode := code, keyDown := down, rnd := rnd }

/-- What a step's next state shows. -/
def shows {α : Type} (s : State) (f : State → α) : Option α :=
  match step s with
  | .next t => some (f t)
  | .fault _ => none
  | .refused _ => none

/-- The vectors' "one instruction step": the word at `pc`, one Poll. -/
def after {α : Type} (w : Nat) (s : State) (f : State → α) : Option α := shows (s.withFetchWord 16 w) f

/-- The pixels that are on among the first rows and columns, as (x, y). -/
def lit (t : State) (w h : Nat) : List (Nat × Nat) :=
  (List.range h).flatMap fun y => ((List.range w).filter fun x => t.pixel x y).map fun x => (x, y)

/-- A step answers a next state. -/
theorem exists_next {s : State} (h : (shows s fun _ => ()).isSome = true) : ∃ t, step s = .next t := by
  unfold shows at h
  cases hs : step s with
  | next t => exact ⟨t, rfl⟩
  | fault r => simp [hs] at h
  | refused r => simp [hs] at h

/-! ### WellFormed: a configuration that breaks each constraint of R9 is refused -/

theorem test_wf_default : Config.defaultParams.wf := by decide
theorem test_wf_fontBase : ¬ Params.wf { Config.defaultParams with fontBase := 4017 } := by decide
theorem test_wf_fontBase_last : Params.wf { Config.defaultParams with fontBase := 4016 } := by decide
theorem test_wf_progStart : ¬ Params.wf { Config.defaultParams with progStart := 4096 } := by decide
theorem test_wf_stackCap : ¬ Params.wf { Config.defaultParams with stackCap := 0 } := by decide
theorem test_wf_dispW : ¬ Params.wf { Config.defaultParams with dispW := 0 } := by decide
theorem test_wf_dispH : ¬ Params.wf { Config.defaultParams with dispH := 0 } := by decide
theorem test_wf_ips : ¬ Params.wf { Config.defaultParams with ips := 0 } := by decide
theorem test_wf_fps : ¬ Params.wf { Config.defaultParams with fps := 0 } := by decide
theorem test_wf_clockHz : ¬ Params.wf { Config.defaultParams with clockHz := 0 } := by decide
theorem test_wf_threshold : ¬ Params.wf { Config.defaultParams with iOvfThreshold := 0x10000 } := by decide
theorem test_wf_fontData : ¬ Params.wf { Config.defaultParams with fontData := [0] } := by decide
/-- T222, T223: 3584 bytes fit, 3585 do not. -/
theorem test_romFits : romFits Config.defaultParams (List.replicate 3584 0xAB) ∧
    ¬ romFits Config.defaultParams (List.replicate 3585 0xAB) := by
  simp only [romFits, List.length_replicate]
  decide

/-! ### Decoding: a word of every constructor, from the match and field columns of R100 and R91 -/

theorem test_decode_class0 : decodeWord 0x00E0 = .ok .op00E0 ∧ decodeWord 0x00EE = .ok .op00EE := by decide
theorem test_decode_jumps : decodeWord 0x1ABC = .ok (.op1NNN 0xABC) ∧ decodeWord 0x2ABC = .ok (.op2NNN 0xABC) ∧
    decodeWord 0xBFFF = .ok (.opBNNN 0xFFF) ∧ decodeWord 0xA123 = .ok (.opANNN 0x123) := by decide
theorem test_decode_skips : decodeWord 0x3A42 = .ok (.op3XNN 10 0x42) ∧ decodeWord 0x4A42 = .ok (.op4XNN 10 0x42) ∧
    decodeWord 0x5127 = .ok (.op5XY0 1 2) ∧ decodeWord 0x912F = .ok (.op9XY0 1 2) := by decide
theorem test_decode_immediate : decodeWord 0x6AFF = .ok (.op6XNN 10 0xFF) ∧
    decodeWord 0x7A05 = .ok (.op7XNN 10 0x05) ∧ decodeWord 0xC10F = .ok (.opCXNN 1 0x0F) := by decide
theorem test_decode_class8 : decodeWord 0x8120 = .ok (.op8XY0 1 2) ∧ decodeWord 0x8121 = .ok (.op8XY1 1 2) ∧
    decodeWord 0x8122 = .ok (.op8XY2 1 2) ∧ decodeWord 0x8123 = .ok (.op8XY3 1 2) ∧
    decodeWord 0x8124 = .ok (.op8XY4 1 2) ∧ decodeWord 0x8125 = .ok (.op8XY5 1 2) ∧
    decodeWord 0x8126 = .ok (.op8XY6 1 2) ∧ decodeWord 0x8127 = .ok (.op8XY7 1 2) ∧
    decodeWord 0x812E = .ok (.op8XYE 1 2) := by decide
theorem test_decode_draw_keys : decodeWord 0xD125 = .ok (.opDXYN 1 2 5) ∧ decodeWord 0xE19E = .ok (.opEX9E 1) ∧
    decodeWord 0xE1A1 = .ok (.opEXA1 1) := by decide
theorem test_decode_classF : decodeWord 0xF507 = .ok (.opFX07 5) ∧ decodeWord 0xF30A = .ok (.opFX0A 3) ∧
    decodeWord 0xF515 = .ok (.opFX15 5) ∧ decodeWord 0xF518 = .ok (.opFX18 5) ∧
    decodeWord 0xF11E = .ok (.opFX1E 1) ∧ decodeWord 0xF129 = .ok (.opFX29 1) ∧
    decodeWord 0xF433 = .ok (.opFX33 4) ∧ decodeWord 0xF155 = .ok (.opFX55 1) ∧
    decodeWord 0xFF65 = .ok (.opFX65 15) := by decide
/-- T185: the words that select nothing. -/
theorem test_decode_unknown : ([0x0000, 0x0123, 0x01E0, 0x00E1, 0x00FE, 0x0EE0, 0x8008, 0x800F, 0xE000, 0xE19F,
    0xF000, 0xF1FF, 0xF10B, 0xF175, 0xF185] : List Word).all
    (fun w => decodeWord w = .error (.unknownInstruction w)) = true := by decide
/-- R62: the first byte is the high byte; R90: two bytes an instruction. -/
theorem test_decode_bytes : decode [0x12, 0x34, 0x56] = .ok (.op1NNN 0x234, [0x56]) ∧
    decode [0x12] = .error .tooFewBytes := by decide
/-- R100, R105: words assembled from the map. -/
theorem test_encode : encode (.opDXYN 1 2 5) = 0xD125 ∧ encode (.op2NNN 0xABC) = 0x2ABC ∧
    encode (.op5XY0 1 2) = 0x5120 ∧ encode (.op8XYE 1 2) = 0x812E ∧ encode (.opFX65 3) = 0xF365 ∧
    encodeBytes (.op1NNN 0x234) = [0x12, 0x34] := by decide
theorem test_table_word : decodeTableWord 16 0xD125 = some (.opDXYN 1 2 5) ∧ decodeTableWord 16 0x0000 = none := by
  decide
/-- R100: no word selects two rows. -/
theorem test_rows_disjoint : opcodeMap.Pairwise (fun r q =>
    ∃ k ∈ List.range 16, (r.mask &&& q.mask).getLsbD k = true ∧ r.pattern.getLsbD k ≠ q.pattern.getLsbD k) := by
  decide

/-! ### Control flow -/

theorem test_1NNN : after 0x1ABC State.reset (·.pc) = some 0x0ABC := by decide
theorem test_2NNN_last_slot : after 0x2ABC { State.reset with sp := 14 } (fun t => (t.pc, t.sp, t.stack[14]?, t.fault)) =
    some (0x0ABC, 15, some 0x0202, none) := by decide
theorem test_2NNN_overflow : after 0x2ABC { State.reset with sp := 15 } (fun t => (t.faultOut, t.pc, t.sp)) =
    some (1, 0x0202, 15) := by decide
theorem test_00EE : after 0x00EE { State.reset with sp := 1, stack := 0x0346 :: List.replicate 14 0 }
    (fun t => (t.pc, t.sp)) = some (0x0346, 0) := by decide
theorem test_00EE_underflow : after 0x00EE State.reset (fun t => (t.faultOut, t.pc, t.sp)) =
    some (2, 0x0202, 0) := by decide
theorem test_BNNN : after 0xBFFF (start [(0, 0xFF)]) (fun t => (t.pc, t.fault)) = some (0x10FE, none) := by decide
theorem test_3XNN : after 0x3A42 (start [(10, 0x42)]) (·.pc) = some 0x0204 ∧
    after 0x3A42 (start [(10, 0x43)]) (·.pc) = some 0x0202 := by decide
theorem test_4XNN : after 0x4A42 (start [(10, 0x42)]) (·.pc) = some 0x0202 ∧
    after 0x4A42 (start [(10, 0x43)]) (·.pc) = some 0x0204 := by decide
theorem test_5XY0 : after 0x5127 (start [(1, 7), (2, 7)]) (·.pc) = some 0x0204 ∧
    after 0x5120 (start [(1, 7), (2, 8)]) (·.pc) = some 0x0202 := by decide
theorem test_9XY0 : after 0x912F (start [(1, 7), (2, 8)]) (·.pc) = some 0x0204 ∧
    after 0x9120 (start [(1, 7), (2, 7)]) (·.pc) = some 0x0202 := by decide
/-- T20: a skip past the end does not itself fault. -/
theorem test_skip_at_end : after 0x3000 { State.reset with pc := 0x0FFC } (fun t => (t.pc, t.fault)) =
    some (0x1000, none) := by decide

/-! ### Immediate and index -/

theorem test_6XNN : after 0x6F07 State.reset (·.reg VF) = some 0x07 := by decide
theorem test_7XNN : after 0x7A01 (start [(10, 0xFF), (15, 0x55)]) (fun t => (t.reg 10, t.reg VF)) =
    some (0x00, 0x55) := by decide
theorem test_ANNN : after 0xAFFF State.reset (·.I) = some 0x0FFF := by decide
theorem test_CXNN : after 0xC10F { State.reset with events := [.poll (at' 1 (rnd := 0xA7))] } (·.reg 1) =
    some 0x07 := by decide
theorem test_FX1E_threshold : after 0xF11E (start [(1, 0x01)] 0x0FFF) (fun t => (t.I, t.reg VF)) = some (0x1000, 0) ∧
    after 0xF11E (start [(1, 0x02)] 0x0FFF) (fun t => (t.I, t.reg VF)) = some (0x1001, 1) := by decide
theorem test_FX1E_wrap : after 0xF11E (start [(1, 0x02)] 0xFFFF) (fun t => (t.I, t.reg VF)) = some (0x0001, 0) ∧
    after 0xFF1E (start [(15, 0x20)] 0x0FFF) (fun t => (t.I, t.reg VF)) = some (0x101F, 1) := by decide
theorem test_FX29 : after 0xF129 (start [(1, 0xFA)]) (·.I) = some 0x0082 ∧
    after 0xF129 (start [(1, 0x0F)]) (·.I) = some 0x009B := by decide

/-! ### ALU -/

theorem test_8XY0 : after 0x8120 (start [(2, 0x33)]) (·.reg 1) = some 0x33 := by decide
theorem test_8XY1 : after 0x8121 (start [(1, 0x0C), (2, 0x0A), (15, 0x77)]) (fun t => (t.reg 1, t.reg VF)) =
    some (0x0E, 0x77) := by decide
theorem test_8XY2 : after 0x8122 (start [(1, 0x0C), (2, 0x0A), (15, 0x77)]) (fun t => (t.reg 1, t.reg VF)) =
    some (0x08, 0x77) := by decide
theorem test_8XY3 : after 0x8123 (start [(1, 0x0C), (2, 0x0A), (15, 0x77)]) (fun t => (t.reg 1, t.reg VF)) =
    some (0x06, 0x77) := by decide
theorem test_8XY4 : after 0x8124 (start [(1, 250), (2, 10)]) (fun t => (t.reg 1, t.reg VF, t.reg 2)) =
    some (4, 1, 10) ∧
    after 0x8124 (start [(1, 0xFF), (15, 9)]) (fun t => (t.reg 1, t.reg VF)) = some (0xFF, 0) := by decide
theorem test_8XY4_alias : after 0x8F14 (start [(1, 0xF0), (15, 0x20)]) (·.reg VF) = some 0x10 ∧
    after 0x81F4 (start [(1, 0xFF), (15, 0x01)]) (fun t => (t.reg 1, t.reg VF)) = some (0, 1) := by decide
theorem test_8XY5 : after 0x8125 (start [(1, 3), (2, 10)]) (fun t => (t.reg 1, t.reg VF)) = some (249, 0) ∧
    after 0x8125 (start [(1, 5), (2, 5), (15, 1)]) (fun t => (t.reg 1, t.reg VF)) = some (0, 0) := by decide
theorem test_8XY5_alias : after 0x81F5 (start [(1, 5), (15, 3)]) (fun t => (t.reg 1, t.reg VF)) = some (4, 1) ∧
    after 0x8F15 (start [(1, 5), (15, 2)]) (·.reg VF) = some 0xFB := by decide
theorem test_8XY6 : after 0x8126 (start [(1, 0x05), (2, 0xFF)]) (fun t => (t.reg 1, t.reg VF, t.reg 2)) =
    some (0x02, 1, 0xFF) ∧ after 0x8F06 (start [(15, 0x03)]) (·.reg VF) = some 0 := by decide
theorem test_8XY6_vy : after 0x8126 { start [(1, 0x05), (2, 0x08)] with
    params := { Config.defaultParams with shiftUsesVy := true } } (fun t => (t.reg 1, t.reg VF, t.reg 2)) =
    some (0x04, 0, 0x08) := by decide
theorem test_8XY7 : after 0x8127 (start [(1, 0x01)]) (fun t => (t.reg 1, t.reg VF)) = some (0xFF, 0) ∧
    after 0x8F17 (start [(1, 5), (15, 2)]) (·.reg VF) = some 4 := by decide
theorem test_8XYE : after 0x812E (start [(1, 0x81), (2, 0xFF)]) (fun t => (t.reg 1, t.reg VF, t.reg 2)) =
    some (0x02, 0x80, 0xFF) ∧ after 0x8F0E (start [(15, 0xC1)]) (·.reg VF) = some 0 := by decide
theorem test_8XYE_quirks : after 0x8F0E { start [(15, 0xC1)] with
    params := { Config.defaultParams with shlVfRaw := false } } (·.reg VF) = some 0x02 ∧
    after 0x812E { start [(1, 0x01), (2, 0xC0)] with
      params := { Config.defaultParams with shiftUsesVy := true } } (fun t => (t.reg 1, t.reg VF)) =
      some (0x80, 0x80) := by decide

/-! ### Display -/

/-- T112: clipped at the right edge. -/
theorem test_DXYN_clip : after 0xD011 (start [(0, 60)] 0x300 [(0x300, 0xFF)]) (fun t => (lit t 64 2, t.reg VF)) =
    some ([(60, 0), (61, 0), (62, 0), (63, 0)], 0) := by decide
/-- T118: the second row's byte is out of range; the first row stays. -/
theorem test_DXYN_fault : after 0xD012 (start [] 0xFFF [(0xFFF, 0x80)]) (fun t => (lit t 4 4, t.reg VF, t.faultOut)) =
    some ([(0, 0)], 0, 3) := by decide
/-- T122. -/
theorem test_00E0 : after 0x00E0 { start [(15, 1)] with disp := List.replicate 32 (List.replicate 64 true) }
    (fun t => (lit t 64 2, t.reg VF)) = some ([], 1) := by decide

/-! ### Keys -/

theorem test_EX9E : after 0xE19E { start [(1, 0xF5)] with events := [.poll (at' 1 (down := 0x0020))] } (·.pc) =
    some 0x0204 ∧
    after 0xE19E { start [(1, 5)] with events := [.poll (at' 1 true 5 0xFFDF)] } (·.pc) = some 0x0202 := by decide
theorem test_EXA1 : after 0xE1A1 { start [(1, 5)] with events := [.poll (at' 1)] } (·.pc) = some 0x0204 ∧
    after 0xE1A1 { start [(1, 5)] with events := [.poll (at' 1 (down := 0x0020))] } (·.pc) = some 0x0202 := by decide
/-- T138 a: the key shown at entry is not taken. -/
theorem test_FX0A_enter : after 0xF30A { State.reset with events := [.poll (at' 1 true 7)] }
    (fun t => (t.keyBlocked, t.pc, t.reg 3)) = some (true, 0x0200, 0) := by decide
/-- T138 c. -/
theorem test_FX0A_resume : after 0xF30A { start [] 0 [(0x200, 0xF3), (0x201, 0x0A)] with
    keyBlocked := true, events := [.poll (at' 1 true 0xB)] }
    (fun t => (t.keyBlocked, t.pc, t.reg 3)) = some (false, 0x0202, 0x0B) := by decide

/-! ### Timers and transfers -/

theorem test_FX07 : after 0xF507 { State.reset with DT := 0x2A } (fun t => (t.reg 5, t.DT)) = some (0x2A, 0x2A) := by
  decide
theorem test_FX15 : after 0xF515 (start [(5, 60)]) (fun t => (t.DT, t.ST)) = some (60, 0) := by decide
theorem test_FX18 : after 0xF518 (start [(5, 60)]) (fun t => (t.ST, t.DT, t.soundOn)) = some (60, 0, true) := by decide
theorem test_FX33 : after 0xF433 (start [(4, 157)] 0x300)
    (fun t => ([0x300, 0x301, 0x302].map t.readByte, t.I)) = some ([1, 5, 7], 0x300) := by decide
/-- T159: a partial write. -/
theorem test_FX33_fault : after 0xF433 (start [(4, 234)] 0xFFE)
    (fun t => ([0xFFE, 0xFFF].map t.readByte, t.faultOut, t.pc)) = some ([2, 3], 3, 0x0202) := by decide
theorem test_FX55 : after 0xF155 (start [(0, 0xAA), (1, 0xBB), (2, 0xCC)] 0x300)
    (fun t => ([0x300, 0x301, 0x302].map t.readByte, t.I)) = some ([0xAA, 0xBB, 0], 0x300) := by decide
theorem test_FX55_fault : after 0xF355 (start [(0, 0x10), (1, 0x11), (2, 0x12), (3, 0x13)] 0xFFE)
    (fun t => ([0xFFE, 0xFFF].map t.readByte, t.faultOut)) = some ([0x10, 0x11], 3) := by decide
theorem test_FX65 : after 0xF165 (start [(2, 0x99)] 0x300 [(0x300, 0x11), (0x301, 0x22), (0x302, 0x33)])
    (fun t => (t.reg 0, t.reg 1, t.reg 2, t.I)) = some (0x11, 0x22, 0x99, 0x300) := by decide
theorem test_FX65_fault : after 0xF365 (start [(2, 0x99), (3, 0x77)] 0xFFE [(0xFFE, 0x11), (0xFFF, 0x22)])
    (fun t => (t.reg 0, t.reg 1, t.reg 2, t.reg 3, t.faultOut)) = some (0x11, 0x22, 0x99, 0x77, 3) := by decide

/-! ### Fetch, pacer, reset, load -/

/-- T181: no word can be fetched; `pc` is not advanced. -/
theorem test_fetch_out_of_range : shows { State.reset with pc := 0x0FFF } (fun t => (t.faultOut, t.pc)) =
    some (3, 0x0FFF) := by decide
/-- T184: an odd `pc`. -/
theorem test_fetch_odd : shows { start [] 0 [(0x200, 0x60), (0x201, 0x12), (0x202, 0x34)] with pc := 0x0201 }
    (fun t => t.pc) = some 0x0234 := by decide
/-- T221: with nothing loaded the word at 0x200 is 0x0000. -/
theorem test_reset_step : shows State.reset (fun t => (t.faultOut, t.pc)) = some (4, 0x0202) := by decide

/-- The unit of T200 to T208: `CLOCK_HZ` = 4200, the word 0x1200 at 0x200, one Poll at `now`. -/
def paced (now : Nat) : State :=
  { start [] 0 [(0x200, 0x12)] with
    params := { Config.defaultParams with clockHz := 4200 }, DT := 5, events := [.poll (at' now)] }

/-- T200, T201, T203. -/
theorem test_pacer : shows (paced 5) (fun t => (t.tInstr, t.tFrame, t.presents)) = some (0, 0, 0) ∧
    shows (paced 6) (fun t => (t.tInstr, t.tFrame, t.DT)) = some (6, 0, 5) ∧
    shows (paced 1000) (fun t => (t.tInstr, t.tFrame, t.presents, t.DT)) = some (1000, 1000, 1, 4) := by decide
/-- T202, the second Poll: a tick and no step. -/
theorem test_pacer_tick : shows { paced 70 with tInstr := 69 } (fun t => (t.tInstr, t.tFrame, t.presents)) =
    some (69, 70, 1) := by decide
/-- T206: a fault cancels the tick; T208: a clock that went back admits nothing. -/
theorem test_pacer_corners : shows { paced 1000 with mem := [] }
    (fun t => (t.faultOut, t.tInstr, t.pc, t.tFrame, t.DT, t.presents)) = some (4, 1000, 0x0202, 0, 5, 0) ∧
    shows { paced 50 with tInstr := 100, tFrame := 100 } (fun t => (t.tInstr, t.tFrame, t.DT)) =
      some (100, 100, 5) := by decide
/-- T207. -/
theorem test_pacer_halted : shows { paced 2000 with fault := some .unknownInstruction }
    (fun t => (t.faultOut, t.tInstr, t.tFrame, t.DT)) = some (4, 0, 0, 5) := by decide
/-- T210 to T213. -/
theorem test_timer_tick : (({ State.reset with DT := 1 } : State).timerTick.DT, State.reset.timerTick.DT,
    ({ State.reset with ST := 2 } : State).timerTick.soundOn, ({ State.reset with ST := 1 } : State).timerTick.soundOn) =
    (0, 0, true, false) := by decide
/-- T220. -/
theorem test_reset_memory : [0x04F, 0x050, 0x051, 0x054, 0x09B, 0x09C, 0x09F, 0x0A0, 0x200].map State.reset.readByte =
    [0x00, 0xF0, 0x90, 0xF0, 0xF0, 0x80, 0x80, 0x00, 0x00] := by decide
/-- T225: Reset clears a latched fault. -/
theorem test_reset_event : shows { start [(3, 9)] 7 with fault := some .romTooLarge, pc := 0x345, events := [.reset] }
    (fun t => (t.faultOut, t.pc, t.reg 3, t.I, t.loadOpen)) = some (0, 0x200, 0, 0, true) := by decide
/-- R293: a Load copies bytes as they are; a second one is refused. -/
theorem test_load : shows { State.reset with events := [.load [0x00, 0xE0, 0x60]] }
    (fun t => ([0x1FF, 0x200, 0x201, 0x202, 0x203].map t.readByte, t.fault, t.loadOpen)) =
      some ([0, 0, 0xE0, 0x60, 0], none, false) ∧
    shows { State.reset with events := [.load []], loadOpen := false } (fun t => t.pc) = none := by decide

/-! ### Witnesses: what each obligation assumes is met, each clause at a boundary value -/

theorem witness_ReturnPopsOrUnderflows : 0 < ({ State.reset with sp := 1 } : State).sp ∧ State.reset.sp = 0 := by decide

theorem witness_CallPushesOrOverflows :
    (State.reset.stack.length = State.reset.params.stackCap ∧
      ({ State.reset with sp := 14 } : State).sp < State.reset.params.stackCap) ∧
    State.reset.params.stackCap ≤ ({ State.reset with sp := 15 } : State).sp := by decide

/-- The second state has run a matched call in between: its slot above the depth differs from the call's. -/
theorem witness_CallThenReturnRestoresPc :
    (State.reset.stack.length = State.reset.params.stackCap ∧ State.reset.sp < State.reset.params.stackCap) ∧
    ∃ t, exec (.op2NNN 0x300) State.reset = .next t ∧
      ({ t with stack := t.stack.set 1 0x302 } : State).stack[State.reset.sp]? = t.stack[State.reset.sp]? ∧
      ({ t with stack := t.stack.set 1 0x302 } : State).sp = t.sp ∧ t.stack.set 1 0x302 ≠ t.stack :=
  ⟨by decide, _, rfl, by decide, rfl, by decide⟩

theorem witness_IndexLoads : State.reset.params.fontBase + 80 ≤ 4096 ∧
    ({ Config.defaultParams with fontBase := 4016 } : Params).fontBase + 80 ≤ 4096 := by decide

theorem witness_AddSetsCarry : (1 : Reg) ≠ VF ∧ (14 : Reg) ≠ VF := by decide

theorem witness_SubtractSetsNoBorrow : (14 : Reg) ≠ VF ∧ (0 : Reg) ≠ VF := by decide

theorem witness_ShiftsByOne : (∃ a, a = (if (start [(1, 0x81)]).params.shiftUsesVy then (start [(1, 0x81)]).reg 2
    else (start [(1, 0x81)]).reg 1).toNat ∧ a = 0x81) ∧ (1 : Reg) ≠ VF ∧ (15 : Reg) = VF :=
  ⟨⟨0x81, by decide, rfl⟩, by decide, by decide⟩

theorem witness_FlagAliasTable : (14 : Reg) ≠ VF := by decide

/-- A sprite of two rows at the right edge. -/
def sprite : State := start [(0, 60), (1, 5)] 0xFFE [(0xFFE, 0xFF), (0xFFF, 0x81)]

theorem witness_DrawTogglesSpritePixels : displayShape sprite ∧ spriteReadable sprite 1 2 ∧
    (∀ px py, ¬ (sprite.pixel px py = true ∧ spriteOn sprite 0 1 2 px py = true)) ∧
    (∃ px py, ({ sprite with disp := List.replicate 32 (List.replicate 64 true) } : State).pixel px py = true ∧
      spriteOn sprite 0 1 2 px py = true) := by
  refine ⟨by decide, ?_, ?_, 60, 5, by decide, by decide⟩
  · intro i hi _
    have : i < 2 := hi
    interval_cases i <;> decide
  · intro px py h
    have : sprite.pixel px py = false := by
      simp [sprite, start, State.reset, State.resetWith, State.pixel, List.getD, List.getElem?_replicate]
      split <;> simp
    simp [this] at h

theorem witness_DrawFaultKeepsEarlierRows : displayShape { sprite with I := 0xFFF } ∧ 1 < (2 : Nibble).toNat ∧
    ({ sprite with I := 0xFFF } : State).spriteY 1 + 1 < sprite.params.dispH ∧
    memSize ≤ ({ sprite with I := 0xFFF } : State).effAddr 1 ∧
    (∀ j, j < 1 → ({ sprite with I := 0xFFF } : State).effAddr j < memSize) := by decide

theorem witness_DrawTwiceRestoresDisplay : displayShape sprite ∧ spriteReadable sprite 1 2 ∧ (0 : Reg) ≠ VF ∧
    (1 : Reg) ≠ VF :=
  ⟨by decide, witness_DrawTogglesSpritePixels.2.1, by decide, by decide⟩

/-- A unit waiting in the `F30A` at 0x200, with the inputs of the next Poll. -/
def waiting (i : Inputs) : State :=
  { start [] 0 [(0x200, 0xF3), (0x201, 0x0A)] with keyBlocked := true, loadOpen := false, events := [.poll i] }

theorem witness_KeyWaitEntersHoldsAndResumes : State.reset.keyBlocked = false ∧
    ((waiting (at' 1 true 0)).keyBlocked = true ∧ (waiting (at' 1 true 0)).inputs.keyValid = true) ∧
    ((waiting (at' 1)).keyBlocked = true ∧ (waiting (at' 1)).inputs.keyValid = false) := by decide

/-- The invariant of a waiting unit. -/
theorem inv_waiting (i : Inputs) (h : (waiting i).atKeyWait = true) : Inv (waiting i) where
  config := test_wf_default
  memory := show Memory.wf Config.defaultParams [(0x200, 0xF3), (0x201, 0x0A)] by decide
  stackSize := show State.reset.stack.length = 15 ∧ 0 ≤ 15 by decide
  stackValues := by simp [waiting, start, State.reset, State.resetWith]
  display := show displayShape State.reset by decide
  gate := rfl
  keyWait := fun _ => ⟨h, rfl⟩
  beforeRun := fun h => by simp [waiting] at h
  pcReach := show State.reset.pc.toNat ≤ 0x10FE by decide

theorem witness_KeyWaitSuspendsExecution : Inv (waiting (at' 1)) ∧ (waiting (at' 1)).keyBlocked = true ∧
    nextIsPoll (waiting (at' 1)) ∧ (waiting (at' 1)).inputs.keyValid = false ∧ ∃ t, step (waiting (at' 1)) = .next t :=
  ⟨inv_waiting _ (by decide), rfl, .inr ⟨_, _, rfl⟩, rfl, exists_next (by decide)⟩

theorem witness_BcdStoresDecimalDigits : Memory.wf (start [(4, 234)] 0xFFD).params (start [(4, 234)] 0xFFD).mem ∧
    (start [(4, 234)] 0xFFD).effAddr 2 < memSize := by decide

theorem witness_DumpStoresRegisters : Memory.wf (start [] 0xFF0).params (start [] 0xFF0).mem ∧
    (start [] 0xFF0).effAddr (15 : Reg).val < memSize ∧ (15 : Reg) ≤ 15 := by decide

theorem witness_LoadReadsRegisters : (start [] 0xFF0).effAddr (15 : Reg).val < memSize := by decide

theorem witness_TransferFaultKeepsEarlierWrites : Memory.wf (start [] 0xFFE).params (start [] 0xFFE).mem ∧
    (memSize ≤ (start [] 0xFFE).effAddr 2 ∧ (start [] 0xFFE).effAddr 0 < memSize ∧
      (start [] 0xFFE).effAddr 1 < memSize) ∧
    (memSize ≤ (start [] 0xFFE).effAddr (3 : Reg).val ∧ (1 : Reg) ≤ 3 ∧
      (start [] 0xFFE).effAddr (1 : Reg).val < memSize) := by decide

theorem witness_DumpThenLoadRestoresRegisters : ∃ t, exec (.opFX55 3) (start [(0, 0xDE)] 0x300) = .next t ∧
    Memory.wf (start [(0, 0xDE)] 0x300).params (start [(0, 0xDE)] 0x300).mem ∧
    (start [(0, 0xDE)] 0x300).effAddr (3 : Reg).val < memSize ∧ t.I = t.I ∧
    (∀ j : Reg, j ≤ 3 → t.readByte (t.effAddr j.val) = t.readByte (t.effAddr j.val)) :=
  ⟨_, rfl, by decide, by decide, rfl, fun _ _ => rfl⟩

/-- Stores over the whole word, over one half of it, and beside it, up to the end of memory. -/
theorem witness_StoreIsSeenByNextFetch : Memory.wf State.reset.params State.reset.mem ∧
    ({ start [] 0xFFD with pc := 0xFFE } : State).pc.toNat + 1 < memSize ∧
    ((start [] 0xFFE).effAddr (1 : Reg).val < memSize ∧ (start [] 0xFFD).effAddr 2 < memSize) ∧
    ((start [] 0x1FF).effAddr (1 : Reg).val = (start [] 0x1FF).pc.toNat ∧ (2 : Reg) ≤ 2 ∧
      (start [] 0x1FF).effAddr (2 : Reg).val = (start [] 0x1FF).pc.toNat + 1) ∧
    (∀ j : Reg, j ≤ 1 → (start [] 0x201).effAddr j.val ≠ (start [] 0x201).pc.toNat) ∧
    (∀ j : Reg, j ≤ 1 → (start [] 0x1FF).effAddr j.val ≠ (start [] 0x1FF).pc.toNat + 1) ∧
    ((start [] 0x1FE).effAddr 2 = (start [] 0x1FE).pc.toNat ∧
      (start [] 0x201).effAddr 0 = (start [] 0x201).pc.toNat + 1) ∧
    (∀ k, k < 3 → (start [] 0x201).effAddr k ≠ (start [] 0x201).pc.toNat) ∧
    (∀ k, k < 3 → (start [] 0x1FE).effAddr k ≠ (start [] 0x1FE).pc.toNat + 1) := by decide

theorem witness_InstructionWritesOnlyItsElements : ∃ t, exec (.opFX55 15) (start [] 0xFF8) = .next t :=
  exec_next _ _

theorem witness_FlagWrittenOnlyByNamedInstructions :
    ∃ t, exec (.op8XY4 1 2) (start [(1, 250), (2, 10)]) = .next t ∧ t.reg VF ≠ (start [(1, 250), (2, 10)]).reg VF :=
  ⟨_, rfl, by decide⟩

theorem witness_StorageWrittenOnlyByItsInstructions :
    (∃ t, exec (.opFX33 4) (start [(4, 157)] 0x300) = .next t ∧ t.mem ≠ []) ∧
    (∃ t, exec (.op2NNN 0x300) State.reset = .next t ∧
      (t.stack ≠ State.reset.stack ∨ t.sp ≠ State.reset.sp)) ∧
    (∃ t, exec .op00E0 { State.reset with disp := List.replicate 32 (List.replicate 64 true) } = .next t ∧
      t.disp ≠ List.replicate 32 (List.replicate 64 true)) ∧
    (∃ t, exec (.opFX0A 3) State.reset = .next t ∧ t.keyBlocked ≠ State.reset.keyBlocked) ∧
    (∃ t, exec (.opFX15 5) (start [(5, 60)]) = .next t ∧ t.DT ≠ 0) ∧
    (∃ t, exec (.opFX18 5) (start [(5, 60)]) = .next t ∧ t.ST ≠ 0) ∧
    (∃ t, exec (.opANNN 0x123) State.reset = .next t ∧ t.I ≠ State.reset.I) :=
  ⟨⟨_, rfl, by decide⟩, ⟨_, rfl, by decide⟩, ⟨_, rfl, by decide⟩, ⟨_, rfl, by decide⟩, ⟨_, rfl, by decide⟩,
    ⟨_, rfl, by decide⟩, ⟨_, rfl, by decide⟩⟩

theorem witness_OnlyTheseInstructionsRaise :
    (∃ t, exec .op00EE State.reset = .next t ∧ Safe State.reset ∧ ¬ Safe t) ∧
    (∃ t, exec (.op2NNN 0x300) { State.reset with sp := 15 } = .next t ∧ Safe State.reset ∧ ¬ Safe t) ∧
    (∃ t, exec (.opFX33 4) (start [] 0xFFE) = .next t ∧ Safe (start [] 0xFFE) ∧ ¬ Safe t) :=
  ⟨⟨_, rfl, rfl, by unfold Safe; decide⟩, ⟨_, rfl, rfl, by unfold Safe; decide⟩,
    ⟨_, rfl, rfl, by unfold Safe; decide⟩⟩

/-- The three instructions that read an input, and one that reads none with inputs that differ. -/
theorem witness_UnreadInputsDoNotMatter : (at' 1 true 3 7 9).rnd = (at' 2 false 4 8 9).rnd ∧
    (at' 1 true 3 7 9).keyDown = (at' 2 false 4 7 0).keyDown ∧
    ((at' 1 true 3 7 9).keyValid = (at' 2 true 3 8 0).keyValid ∧
      (at' 1 true 3 7 9).keyCode = (at' 2 true 3 8 0).keyCode) ∧
    (∀ x nn, Instr.op00E0 ≠ .opCXNN x nn) ∧ at' 1 true 3 7 9 ≠ at' 2 := by
  refine ⟨rfl, rfl, ⟨rfl, rfl⟩, ?_, by decide⟩
  intro x nn h
  cases h

theorem witness_FetchIsBigEndian : ({ State.reset with pc := 0xFFE } : State).pc.toNat + 1 ≤ 0xFFF ∧
    0xFFF < ({ State.reset with pc := 0xFFF } : State).pc.toNat + 1 := by decide

theorem witness_EqualReadsAreEqualMemories : Memory.wf Config.defaultParams [(0x50, 0x00), (0x200, 0x12)] ∧
    (∀ a, Memory.read Config.defaultParams [(0x50, 0x00), (0x200, 0x12)] a =
      Memory.read Config.defaultParams [(0x50, 0x00), (0x200, 0x12)] a) :=
  ⟨by decide, fun _ => rfl⟩

theorem witness_StepKeepsMemoryCanonical :
    Memory.wf (State.reset.withFetchWord 16 0xF155).params (State.reset.withFetchWord 16 0xF155).mem ∧
    ∃ t, step (State.reset.withFetchWord 16 0xF155) = .next t :=
  ⟨by decide, exists_next (by decide)⟩

theorem witness_DecodeInvertsEncode : (Instr.opDXYN 15 15 15).wf := trivial

theorem witness_EncodeInvertsDecode : decodeWord 0xFFFF ≠ .ok .op00E0 ∧ decodeWord 0x512F = .ok (.op5XY0 1 2) ∧
    fieldClass 0x512F = 0x5 ∧ decodeWord 0xDFFF = .ok (.opDXYN 15 15 15) := by decide

theorem witness_DecodeFollowsOpcodeMap : decodeWord 0x912F = .ok (.op9XY0 1 2) ∧
    (⟨0x9000, 0xF000⟩ : OpcodeRow) ∈ opcodeMap ∧ (⟨0x9000, 0xF000⟩ : OpcodeRow).selects 0x912F = true := by decide

theorem witness_StepRunsDecodedInstruction : State.reset.params.wf ∧ nextIsPoll (sprite.withFetchWord 16 0xD012) ∧
    (sprite.withFetchWord 16 0xD012).fault = none ∧ (sprite.withFetchWord 16 0xD012).instrGateOpen = true ∧
    (sprite.withFetchWord 16 0xD012).waitIntact = true ∧
    (sprite.withFetchWord 16 0xD012).pc.toNat + 1 < memSize ∧ (Instr.opDXYN 0 1 2).wf ∧
    decode ((sprite.withFetchWord 16 0xD012).readByte 0x200 :: (sprite.withFetchWord 16 0xD012).readByte 0x201 :: []) =
      .ok (.opDXYN 0 1 2, []) :=
  ⟨by decide, .inl rfl, by decide, by decide, by decide, by decide, trivial, by decide⟩

theorem witness_UnknownWordHalts : State.reset.params.wf ∧ nextIsPoll State.reset ∧ State.reset.fault = none ∧
    State.reset.keyBlocked = false ∧ State.reset.instrGateOpen = true ∧ State.reset.fetchWord = some 0x0000 ∧
    decodeWord 0x0000 = .error (.unknownInstruction 0x0000) :=
  ⟨by decide, .inl rfl, by decide, by decide, by decide, by decide, by decide⟩

theorem witness_FetchOutOfRangeHalts : State.reset.params.wf ∧ nextIsPoll { State.reset with pc := 0x0FFF } ∧
    State.reset.fault = none ∧ State.reset.keyBlocked = false ∧
    ({ State.reset with pc := 0x0FFF } : State).instrGateOpen = true ∧
    0xFFF < ({ State.reset with pc := 0x0FFF } : State).pc.toNat + 1 :=
  ⟨by decide, .inl rfl, by decide, by decide, by decide, by decide⟩

/-- A unit that a fault halted after its first Poll. -/
def halted : State := { State.reset with fault := some .unknownInstruction, loadOpen := false }

theorem witness_HaltedUnitStandsStill : halted.params.wf ∧ nextIsPoll halted ∧
    halted.fault = some .unknownInstruction := ⟨by decide, .inl rfl, rfl⟩

theorem inv_halted : Inv halted where
  config := test_wf_default
  memory := by decide
  stackSize := by decide
  stackValues := by simp [halted, State.reset, State.resetWith]
  display := by decide
  gate := rfl
  keyWait := by decide
  beforeRun := by decide
  pcReach := by decide

theorem witness_OnlyResetClearsFault : Inv halted ∧ halted.fault ≠ none ∧ (∃ t, step halted = .next t) ∧
    (∀ es, halted.events ≠ .reset :: es) :=
  ⟨inv_halted, by decide, exists_next (by decide), fun es h => by simp [halted, State.reset, State.resetWith] at h⟩

theorem witness_GatesAdmitByTheirRates :
    (nextIsPoll (paced 1000) ∧ (paced 1000).fault = none ∧ ∃ t, step (paced 1000) = .next t) ∧
    (nextIsPoll { paced 1000 with mem := [] } ∧ ∃ t, step { paced 1000 with mem := [] } = .next t) ∧
    shows (paced 1000) (·.fault) = some none ∧
    shows { paced 1000 with mem := [] } (·.fault) = some (some .unknownInstruction) :=
  ⟨⟨.inr ⟨_, _, rfl⟩, rfl, exists_next (by decide)⟩, ⟨.inr ⟨_, _, rfl⟩, exists_next (by decide)⟩, by decide,
    by decide⟩

theorem witness_PollWithoutInstructionStep : (paced 5).params.wf ∧ nextIsPoll (paced 5) ∧ (paced 5).fault = none ∧
    (paced 5).instrGateOpen = false ∧ (paced 5).frameGateOpen = false ∧
    ({ paced 70 with tInstr := 69 } : State).instrGateOpen = false ∧
    ({ paced 70 with tInstr := 69 } : State).frameGateOpen = true :=
  ⟨by decide, .inr ⟨_, _, rfl⟩, rfl, by decide, by decide, by decide, by decide⟩

theorem witness_PollTakesTheInputsPresented : (paced 5).events = .poll (at' 5) :: [] ∧ State.reset.events = [] ∧
    nextIsPoll (paced 5) ∧ ∃ t, step (paced 5) = .next t :=
  ⟨rfl, rfl, .inr ⟨_, _, rfl⟩, exists_next (by decide)⟩

theorem witness_ResetClearsTheUnit : ({ halted with events := [.reset] } : State).params.wf ∧
    ({ halted with events := [.reset] } : State).events = .reset :: [] ∧ 79 < 80 ∧
    (0x4F < State.reset.params.fontBase ∨ State.reset.params.fontBase + 80 ≤ 0x4F) ∧
    (0xA0 < State.reset.params.fontBase ∨ State.reset.params.fontBase + 80 ≤ 0xA0) := by decide

theorem witness_LoadCopiesOrRejects : State.reset.params.wf ∧ Memory.wf State.reset.params State.reset.mem ∧
    State.reset.loadOpen = true ∧
    State.reset.params.progStart + (List.replicate 3584 (0xAB : Byte)).length ≤ 4096 ∧
    4096 < State.reset.params.progStart + (List.replicate 3585 (0xAB : Byte)).length := by
  simp only [List.length_replicate]
  decide

theorem witness_StopsAreTheSpecsRefusals :
    ¬ ({ State.reset with params := { Config.defaultParams with ips := 0 } } : State).params.wf ∧
    ({ State.reset with loadOpen := false, events := [.load []] } : State).loadOpen = false ∧
    (nextIsPoll { State.reset with keyBlocked := true } ∧
      ({ State.reset with keyBlocked := true } : State).instrGateOpen = true ∧
      ({ State.reset with keyBlocked := true } : State).atKeyWait = false) :=
  ⟨by decide, by decide, .inl rfl, by decide, by decide⟩

theorem witness_RunNeverStops : Inv halted ∧ Inv (waiting (at' 1)) := ⟨inv_halted, inv_waiting _ (by decide)⟩

theorem witness_ParametersNeverChange : ∃ t, step (waiting (at' 1 true)) = .next t := exists_next (by decide)

theorem witness_InvariantHoldsAtReset : Config.defaultParams.wf := by decide

theorem witness_StepKeepsInvariant : Inv (waiting (at' 1 true)) ∧ ∃ t, step (waiting (at' 1 true)) = .next t :=
  ⟨inv_waiting _ (by decide), exists_next (by decide)⟩

end Sys2Proof.Tests
end

section
/-! Control flow (spec/40_control_flow.md): jumps and skips write `pc` alone, so both come from what `State.setPc`
leaves unchanged. -/

namespace Sys2Proof.Machine

/-! ### Writing `pc` -/

/-- Writing `pc` changes nothing else. -/
theorem State.setPc_frame (s : State) (w : Word) : Frame [.pc] s (s.setPc w) := by
  intro e he
  cases e with
  | pc => simp at he
  | _ => simp [Elem.same]

/-- Zero extension of NNN keeps its value. -/
@[simp] theorem zext12_toNat (nnn : Imm12) : (zext12 nnn).toNat = nnn.toNat :=
  BitVec.toNat_setWidth_of_le (by decide)

/-! ### A skip (R120) -/

theorem State.skipIf_frame (s : State) (c : Bool) : Frame [.pc] s (s.skipIf c) := by
  rw [State.skipIf_eq]
  exact s.setPc_frame _

theorem State.skipIf_pc_toNat (s : State) (c : Bool) :
    (s.skipIf c).pc.toNat = (s.pc.toNat + if c then 2 else 0) % 65536 := by
  cases c with
  | true => simp [BitVec.toNat_add]
  | false => simpa using (Nat.mod_eq_of_lt s.pc.isLt).symm

/-- An instruction that skips on the test `c` adds 2 to `pc` exactly under the condition that `c` decides, and changes
nothing else. -/
theorem exec_of_eq_skipIf {i : Instr} {s : State} {c : Bool} {p : Prop} [Decidable p]
    (hi : exec i s = .next (s.skipIf c)) (hc : c = true ↔ p) :
    ∃ t, exec i s = .next t ∧ Frame [.pc] s t ∧ t.pc.toNat = (s.pc.toNat + if p then 2 else 0) % 65536 :=
  ⟨s.skipIf c, hi, s.skipIf_frame c, by simp only [s.skipIf_pc_toNat, hc]⟩

/-! ### The tests of the skips compare values -/

theorem beq_iff_toNat_eq (a b : Byte) : (a == b) = true ↔ a.toNat = b.toNat :=
  beq_iff_eq.trans BitVec.toNat_inj.symm

theorem bne_iff_toNat_ne (a b : Byte) : (a != b) = true ↔ a.toNat ≠ b.toNat :=
  bne_iff_ne.trans BitVec.toNat_ne_iff_ne.symm

/-! ### The obligations -/

/-- Settles O2: a jump writes `pc` alone (R122). -/
theorem jumpSetsPc : Obligations.JumpSetsPc := fun s nnn =>
  ⟨s.setPc (zext12 nnn), rfl, zext12_toNat nnn, s.setPc_frame _⟩

/-- Settles O5: each of the four is a skip on a comparison of bytes (R125 to R128). -/
theorem skipsCompareRegisters : Obligations.SkipsCompareRegisters := fun s x y nn =>
  ⟨exec_of_eq_skipIf rfl (beq_iff_toNat_eq (s.reg x) nn), exec_of_eq_skipIf rfl (bne_iff_toNat_ne (s.reg x) nn),
    exec_of_eq_skipIf rfl (beq_iff_toNat_eq (s.reg x) (s.reg y)),
    exec_of_eq_skipIf rfl (bne_iff_toNat_ne (s.reg x) (s.reg y))⟩

end Sys2Proof.Machine
end

section
/-! Immediate and index loads (spec/41_immediate_and_index.md): each writes one element, so what it leaves unchanged
comes from what `State.setReg` or `State.setI` does. -/

namespace Sys2Proof.Machine

/-! ### Writing a register or `I` -/

/-- Writing a register changes nothing else. -/
theorem State.setReg_frame (s : State) (x : Reg) (b : Byte) : Frame [.reg x] s (s.setReg x b) := by
  intro e he
  cases e with
  | reg q => exact s.reg_setReg_of_ne b fun hq => he (by simp [hq])
  | _ => simp [Elem.same]

/-- Writing `I` changes nothing else. -/
theorem State.setI_frame (s : State) (w : Word) : Frame [.index] s (s.setI w) := by
  intro e he
  cases e with
  | index => simp at he
  | _ => simp [Elem.same]

/-! ### The glyph address (R145) -/

/-- Masking with 0x0F leaves the low nibble, the value modulo 16. -/
theorem and_0x0F_toNat (b : Byte) : (b &&& 0x0F).toNat = b.toNat % 16 :=
  (BitVec.toNat_and b 0x0F).trans (Nat.and_two_pow_sub_one_eq_mod b.toNat 4)

/-- With the font inside memory (R9) the address of the last glyph, 75 past `FONT_BASE`, fits in 16 bits. -/
theorem State.glyphAddr_toNat (s : State) (x : Reg) (hfont : s.params.fontBase + 80 ≤ 4096) :
    (s.glyphAddr x).toNat = s.params.fontBase + (s.reg x).toNat % 16 * 5 := by
  have hglyph : (s.reg x).toNat % 16 < 16 := Nat.mod_lt _ (by decide)
  rw [State.glyphAddr, and_0x0F_toNat, BitVec.toNat_ofNat, Nat.mod_eq_of_lt (by omega)]

/-! ### The obligations -/

/-- Settles O7: both write `V[X]` alone, VF included only as X = 15 (R140, R141). -/
theorem immediateLoadAndAdd : Obligations.ImmediateLoadAndAdd := fun s x nn =>
  ⟨⟨s.setReg x nn, rfl, s.reg_setReg_self x nn, s.setReg_frame x nn⟩,
    s.setReg x (s.reg x + nn), rfl, by rw [s.reg_setReg_self, BitVec.toNat_add], s.setReg_frame x _⟩

/-- Settles O8: both write `I` alone (R142, R145). -/
theorem indexLoads : Obligations.IndexLoads :=
  ⟨fun s nnn => ⟨s.setI (zext12 nnn), rfl, zext12_toNat nnn, s.setI_frame _⟩,
    fun s x hfont => ⟨s.setI (s.glyphAddr x), rfl, s.glyphAddr_toNat x hfont, s.setI_frame _⟩⟩

end Sys2Proof.Machine
end

section
/-! Copy and bitwise logic between registers (spec/42_alu_register.md): each is one register write, so the frame is
`State.setReg_frame` and a result bit is a bit of the value written. -/

namespace Sys2Proof.Machine

/-- An instruction that only writes `v`, whose bits are `p`, to `V[X]` leaves those bits there and changes nothing
else. -/
theorem exec_of_eq_setReg_bits {i : Instr} {s : State} {x : Reg} {v : Byte} {p : Nat → Bool}
    (hi : exec i s = .next (s.setReg x v)) (hv : ∀ b, v.getLsbD b = p b) :
    ∃ t, exec i s = .next t ∧ Frame [.reg x] s t ∧ ∀ b, (t.reg x).getLsbD b = p b :=
  ⟨s.setReg x v, hi, s.setReg_frame x v, fun b => by rw [s.reg_setReg_self, hv]⟩

/-- Settles O11: each of the four writes `V[X]` alone, VF included only as X = 15 (R161 to R164). -/
theorem logicLeavesFlagAlone : Obligations.LogicLeavesFlagAlone := fun s x y =>
  ⟨⟨s.setReg x (s.reg y), rfl, s.reg_setReg_self x _, s.setReg_frame x _⟩,
    exec_of_eq_setReg_bits rfl fun _ => BitVec.getLsbD_or,
    exec_of_eq_setReg_bits rfl fun _ => BitVec.getLsbD_and,
    exec_of_eq_setReg_bits rfl fun _ => BitVec.getLsbD_xor⟩

end Sys2Proof.Machine
end

section
/-! Clearing the display (spec/43_display.md): `00E0` is one write of the grid, so what it leaves unchanged comes from
what `State.setDisp` does, and its pixels and shape from the blank grid it writes. -/

namespace Sys2Proof.Machine

/-- Writing the grid changes nothing else. -/
theorem State.setDisp_frame (s : State) (d : List (List Bool)) : Frame [.display] s (s.setDisp d) := by
  intro e he
  cases e with
  | display => simp at he
  | _ => simp [Elem.same]

/-! ### The blank grid -/

/-- A blank grid reads off everywhere: its rows are blank, and a position outside them reads off too. -/
theorem State.pixel_eq_false_of_blank {s : State} {h w : Nat} (hd : s.disp = List.replicate h (List.replicate w false))
    (x y : Nat) : s.pixel x y = false := by
  rw [State.pixel, hd]
  by_cases hy : y < h
  · rw [List.getD_replicate _ hy]
    exact List.getElem?_getD_replicate_default_eq false w x
  · rw [List.getD_eq_default (n := y) _ _ (by simpa using hy), List.getD_nil]

/-- A blank grid of the size the parameters give has the display's shape (R27). -/
theorem displayShape_of_blank {s : State}
    (hd : s.disp = List.replicate s.params.dispH (List.replicate s.params.dispW false)) : displayShape s := by
  constructor
  · rw [hd, List.length_replicate]
  · intro row hrow
    rw [hd] at hrow
    rw [List.eq_of_mem_replicate hrow, List.length_replicate]

/-- Settles O16: clearing writes a blank grid and nothing else, the `present` strobe included (R181). -/
theorem clearTurnsEveryPixelOff : Obligations.ClearTurnsEveryPixelOff := fun s =>
  ⟨s.clearDisplay, rfl, State.pixel_eq_false_of_blank s.clearDisplay_disp, displayShape_of_blank s.clearDisplay_disp,
    s.setDisp_frame _⟩

end Sys2Proof.Machine
end

section
/-! Timer access (spec/45_timers_and_memory.md): each of the three writes one element, so what it leaves unchanged comes
from what `State.setReg`, `State.setDT` or `State.setST` does. -/

namespace Sys2Proof.Machine

/-- Writing `DT` changes nothing else. -/
theorem State.setDT_frame (s : State) (b : Byte) : Frame [.DT] s (s.setDT b) := by
  intro e he
  cases e with
  | DT => simp at he
  | _ => simp [Elem.same]

/-- Writing `ST` changes nothing else. -/
theorem State.setST_frame (s : State) (b : Byte) : Frame [.ST] s (s.setST b) := by
  intro e he
  cases e with
  | ST => simp at he
  | _ => simp [Elem.same]

/-- The `sound_on` output compares `ST` with 0 as numbers (R45). -/
theorem State.soundOn_iff (s : State) : s.soundOn = true ↔ 0 < s.ST.toNat := by
  simp [State.soundOn, BitVec.lt_def]

/-- Settles O23: each of the three writes one element, and `sound_on` is read off the `ST` written (R220 to R222). -/
theorem timerAccess : Obligations.TimerAccess := fun s x =>
  ⟨⟨s.setReg x s.DT, rfl, s.reg_setReg_self x s.DT, s.setReg_frame x s.DT⟩,
    ⟨s.setDT (s.reg x), rfl, s.setDT_DT _, s.setDT_frame _⟩,
    ⟨s.setST (s.reg x), rfl, s.setST_ST _, (s.setST (s.reg x)).soundOn_iff, s.setST_frame _⟩⟩

end Sys2Proof.Machine
end

section
/-! The timer tick (spec/60_exceptions.md): a count-down taken as a number, and three writes, of `DT`, `ST` and the
`present` strobe. -/

namespace Sys2Proof.Machine

/-- As a number a count-down is the truncated subtraction, so a timer at 0 does not wrap to 255 (R254). -/
theorem countDown_toNat (b : Byte) : (countDown b).toNat = b.toNat - 1 := by
  unfold countDown
  split
  case isTrue hpos => exact BitVec.toNat_sub_of_le hpos
  case isFalse hzero => omega

/-- A timer tick changes nothing but the two timers and the strobe. -/
theorem State.timerTick_frame (s : State) : Frame [.DT, .ST, .presents] s s.timerTick := by
  intro e he
  cases e with
  | DT | ST | presents => simp at he
  | _ => simp [Elem.same]

/-- Settles O49: each timer is counted down as a number, and the tick writes the timers and the strobe (R254). -/
theorem timerTickCountsDown : Obligations.TimerTickCountsDown := fun s =>
  ⟨countDown_toNat s.DT, countDown_toNat s.ST, s.timerTick_presents, s.timerTick_frame⟩

end Sys2Proof.Machine
end

section
/-! The decoder and the encoder (spec/30_encoding.md R91 to R101): decoding an assembled word, assembling a decoded
one, the map of R100 and the unknown space of R101. -/

namespace Sys2Proof

/-! ### Decode of encode (R91, R100) -/

/-- The word of an instruction decodes to it: the decoder reads back the class, then the sub-key where the class has
one, then the operands. -/
theorem decodeWord_encode (i : Instr) : decodeWord (encode i) = .ok i := by
  cases i with
  | op00E0 | op00EE => rfl
  | op8XY0 | op8XY1 | op8XY2 | op8XY3 | op8XY4 | op8XY5 | op8XY6 | op8XY7 | op8XYE =>
    simp [encode, decodeWord, decodeClass8]
  | opEX9E | opEXA1 => simp [encode, decodeWord, decodeClassE]
  | opFX07 | opFX0A | opFX15 | opFX18 | opFX1E | opFX29 | opFX33 | opFX55 | opFX65 =>
    simp [encode, decodeWord, decodeClassF]
  | _ => simp [encode, decodeWord]

/-- Two bytes whose word decodes are an instruction, whatever follows them (R90). -/
theorem decode_of_decodeWord {hi lo : Byte} {i : Instr} (rest : List Byte)
    (h : decodeWord (wordOfBytes hi lo) = .ok i) : decode (hi :: lo :: rest) = .ok (i, rest) := by
  simp only [decode, h]

theorem decodeWord_of_decode {hi lo : Byte} {rest rest' : List Byte} {i : Instr}
    (h : decode (hi :: lo :: rest) = .ok (i, rest')) : decodeWord (wordOfBytes hi lo) = .ok i := by
  simp only [decode] at h
  split at h
  · rename_i hd
    cases h
    exact hd
  · cases h

/-- Settles O38: the word decodes by its fields, and the two bytes in memory make up the word. -/
theorem decodeInvertsEncode : Obligations.DecodeInvertsEncode := fun i _ =>
  ⟨decodeWord_encode i, fun rest => decode_of_decodeWord rest (by rw [wordOfBytes_bytes, decodeWord_encode])⟩

/-! ### Encode of decode (R94, R99) -/

theorem wordNNN_of_class {w : Word} {c : Nibble} (h : fieldClass w = c) : wordNNN c (fieldNNN w) = w :=
  h ▸ wordNNN_fields w

theorem wordXNN_of_class {w : Word} {c : Nibble} {nn : Byte} (h : fieldClass w = c) (hn : fieldNN w = nn) :
    wordXNN c (fieldX w) nn = w := by
  rw [← h, ← hn, wordXNN_fields]

theorem wordXYN_of_class {w : Word} {c n : Nibble} (h : fieldClass w = c) (hn : fieldN w = n) :
    wordXYN c (fieldX w) (fieldY w) n = w := by
  rw [← h, ← hn, wordXYN_fields]

/-- With N taken as 0 the word is the given one with its low four bits cleared (R94). -/
theorem wordXYN_zero_of_class {w : Word} {c : Nibble} (h : fieldClass w = c) :
    wordXYN c (fieldX w) (fieldY w) 0x0 = w &&& 0xFFF0 := by
  rw [← h]
  apply BitVec.eq_of_getLsbD_eq
  intro k hk
  simp only [wordXYN, fieldClass, regBits_fieldX, regBits_fieldY, BitVec.getLsbD_and, BitVec.getLsbD_append]
  interval_cases k <;> simp

theorem encode_of_decodeClass0 {w : Word} {i : Instr} (h : decodeClass0 w = .ok i) : encode i = w := by
  unfold decodeClass0 at h
  split at h <;> cases h <;> rfl

theorem encode_of_decodeClass8 {w : Word} {i : Instr} (hc : fieldClass w = 0x8) (h : decodeClass8 w = .ok i) :
    encode i = w := by
  unfold decodeClass8 at h
  split at h <;> cases h <;> exact wordXYN_of_class hc ‹_›

theorem encode_of_decodeClassE {w : Word} {i : Instr} (hc : fieldClass w = 0xE) (h : decodeClassE w = .ok i) :
    encode i = w := by
  unfold decodeClassE at h
  split at h <;> cases h <;> exact wordXNN_of_class hc ‹_›

theorem encode_of_decodeClassF {w : Word} {i : Instr} (hc : fieldClass w = 0xF) (h : decodeClassF w = .ok i) :
    encode i = w := by
  unfold decodeClassF at h
  split at h <;> cases h <;> exact wordXNN_of_class hc ‹_›

/-- The one class that is none of the first fifteen. -/
theorem eq_0xF_of_forall_ne {c : Nibble} (h : ∀ k < 15, c ≠ BitVec.ofNat 4 k) : c = 0xF := by
  revert c
  decide

/-- Settles O39: each arm of the decoder reads the operands the encoder writes back; only classes 0x5 and 0x9 drop a
field. -/
theorem encodeInvertsDecode : Obligations.EncodeInvertsDecode := by
  intro w i h
  unfold decodeWord at h
  split at h
  case h_1 hc => rw [if_neg (by simp [hc]), encode_of_decodeClass0 h]
  case h_9 hc => rw [if_neg (by simp [hc]), encode_of_decodeClass8 hc h]
  case h_15 hc => rw [if_neg (by simp [hc]), encode_of_decodeClassE hc h]
  case h_16 =>
    have hc : fieldClass w = 0xF := eq_0xF_of_forall_ne fun k hk => by interval_cases k <;> assumption
    rw [if_neg (by simp [hc]), encode_of_decodeClassF hc h]
  case h_6 hc | h_10 hc =>
    cases h
    rw [if_pos (by simp [hc])]
    exact wordXYN_zero_of_class hc
  all_goals
    cases h
    rename_i hc
    rw [if_neg (by simp [hc])]
    simp [encode, wordNNN_of_class hc, wordXNN_of_class hc, wordXYN_of_class hc]

/-! ### The map (R100) -/

/-- Every instruction's row is in the map. -/
theorem row_mem_opcodeMap (i : Instr) : i.row ∈ opcodeMap := by cases i <;> simp [Instr.row, opcodeMap]

open Laws.Encoding in
/-- Every instruction's row selects its word. -/
theorem row_selects_encode : ∀ i : Instr, i.row.selects (encode i) = true
  | .op00E0 => op00E0
  | .op00EE => op00EE
  | .op1NNN nnn => op1NNN nnn
  | .op2NNN nnn => op2NNN nnn
  | .op3XNN x nn => op3XNN x nn
  | .op4XNN x nn => op4XNN x nn
  | .op5XY0 x y => op5XY0 x y
  | .op6XNN x nn => op6XNN x nn
  | .op7XNN x nn => op7XNN x nn
  | .op8XY0 x y => op8XY0 x y
  | .op8XY1 x y => op8XY1 x y
  | .op8XY2 x y => op8XY2 x y
  | .op8XY3 x y => op8XY3 x y
  | .op8XY4 x y => op8XY4 x y
  | .op8XY5 x y => op8XY5 x y
  | .op8XY6 x y => op8XY6 x y
  | .op8XY7 x y => op8XY7 x y
  | .op8XYE x y => op8XYE x y
  | .op9XY0 x y => op9XY0 x y
  | .opANNN nnn => opANNN nnn
  | .opBNNN nnn => opBNNN nnn
  | .opCXNN x nn => opCXNN x nn
  | .opDXYN x y n => opDXYN x y n
  | .opEX9E x => opEX9E x
  | .opEXA1 x => opEXA1 x
  | .opFX07 x => opFX07 x
  | .opFX0A x => opFX0A x
  | .opFX15 x => opFX15 x
  | .opFX18 x => opFX18 x
  | .opFX1E x => opFX1E x
  | .opFX29 x => opFX29 x
  | .opFX33 x => opFX33 x
  | .opFX55 x => opFX55 x
  | .opFX65 x => opFX65 x

/-- The mask of a row that looks at the class alone does not see a cleared N (R94). -/
theorem and_class_mask_of_ignored (w : Word) : w &&& 0xFFF0 &&& 0xF000 = w &&& 0xF000 := by
  rw [BitVec.and_assoc]
  congr 1

/-- A word that decodes is selected by its instruction's row: it is the instruction's word but for an ignored N. -/
theorem row_selects_of_decodeWord {w : Word} {i : Instr} (h : decodeWord w = .ok i) : i.row.selects w = true := by
  have he := encodeInvertsDecode w i h
  have hs := row_selects_encode i
  rw [he] at hs
  split at hs
  · rename_i hc
    rcases hc with hc | hc
    all_goals
      obtain rfl : _ = i := Except.ok.inj (ε := DecodeReject) (by simpa [decodeWord, hc] using h)
      rwa [OpcodeRow.selects, Instr.row, and_class_mask_of_ignored] at hs
  · exact hs

/-- The bits a row's mask covers are those of its pattern in every word the row selects (R100). -/
theorem extractLsb'_of_selects {r : OpcodeRow} {w : Word} (start len : Nat)
    (hm : r.mask.extractLsb' start len = BitVec.allOnes len) (h : r.selects w = true) :
    w.extractLsb' start len = r.pattern.extractLsb' start len := by
  have hw : w &&& r.mask = r.pattern := by simpa [OpcodeRow.selects] using h
  rw [← hw, BitVec.extractLsb'_and, hm, BitVec.and_allOnes]

/-- A word a row of the map selects decodes to an instruction of that row: the row fixes the class, and the sub-key
where the class has one. -/
theorem decodeWord_of_selects {w : Word} {r : OpcodeRow} (hr : r ∈ opcodeMap) (h : r.selects w = true) :
    ∃ i, decodeWord w = .ok i ∧ i.row = r := by
  simp only [opcodeMap, List.mem_append, List.mem_cons, List.not_mem_nil, or_false] at hr
  obtain (((rfl | rfl | hclass) | h8) | (hclass | hclass | hclass | hclass | hclass | hE)) | hF := hr
  -- The two rows that match the whole word (R95).
  iterate 2
    have hw := extractLsb'_of_selects 0 16 rfl h
    simp only [BitVec.extractLsb'_eq_self] at hw
    exact ⟨_, by rw [hw]; rfl, rfl⟩
  -- The rows that look at the class alone, before class 0x8.
  · obtain rfl | rfl | rfl | rfl | rfl | rfl | rfl := hclass <;>
      simp [decodeWord, fieldClass, extractLsb'_of_selects 12 4 rfl h, Instr.row]
  -- Class 0x8, by N (R96).
  · obtain rfl | rfl | rfl | rfl | rfl | rfl | rfl | rfl | rfl := h8 <;>
      simp [decodeWord, decodeClass8, fieldClass, fieldN, extractLsb'_of_selects 12 4 rfl h,
        extractLsb'_of_selects 0 4 rfl h, Instr.row]
  -- The rows that look at the class alone, after class 0x8.
  iterate 5
    subst hclass
    simp [decodeWord, fieldClass, extractLsb'_of_selects 12 4 rfl h, Instr.row]
  -- Class 0xE, by NN (R97).
  · obtain rfl | rfl := hE <;>
      simp [decodeWord, decodeClassE, fieldClass, fieldNN, extractLsb'_of_selects 12 4 rfl h,
        extractLsb'_of_selects 0 8 rfl h, Instr.row]
  -- Class 0xF, by NN (R98).
  · obtain rfl | rfl | rfl | rfl | rfl | rfl | rfl | rfl | rfl := hF <;>
      simp [decodeWord, decodeClassF, fieldClass, fieldNN, extractLsb'_of_selects 12 4 rfl h,
        extractLsb'_of_selects 0 8 rfl h, Instr.row]

/-- Settles O40: from a decoded word to its row by the encoder, from a row to its instruction by the fields. -/
theorem decodeFollowsOpcodeMap : Obligations.DecodeFollowsOpcodeMap :=
  ⟨fun _ i h => ⟨row_mem_opcodeMap i, row_selects_of_decodeWord h⟩, fun _ _ hr h => decodeWord_of_selects hr h⟩

/-! ### The unknown space (R101) -/

theorem fieldClass_toNat (w : Word) : (fieldClass w).toNat = w.toNat / 0x1000 := by
  have := w.isLt
  rw [fieldClass, BitVec.extractLsb'_toNat, Nat.shiftRight_eq_div_pow]
  omega

theorem fieldN_toNat (w : Word) : (fieldN w).toNat = w.toNat % 0x10 := by
  simp [fieldN, BitVec.extractLsb'_toNat]

theorem fieldNN_toNat (w : Word) : (fieldNN w).toNat = w.toNat % 0x100 := by
  simp [fieldNN, BitVec.extractLsb'_toNat]

theorem decodeClass0_error_iff (w : Word) : decodeClass0 w = .error (.unknownInstruction w) ↔
    w.toNat ≠ 0x00E0 ∧ w.toNat ≠ 0x00EE := by
  unfold decodeClass0
  split
  case h_3 => simp_all [← BitVec.toNat_inj]
  all_goals simp

theorem decodeClass8_error_iff (w : Word) : decodeClass8 w = .error (.unknownInstruction w) ↔
    w.toNat % 0x10 ∈ [0x8, 0x9, 0xA, 0xB, 0xC, 0xD, 0xF] := by
  rw [← fieldN_toNat]
  unfold decodeClass8
  split
  case h_10 =>
    simp_all [← BitVec.toNat_inj]
    omega
  all_goals simp [*]

theorem decodeClassE_error_iff (w : Word) : decodeClassE w = .error (.unknownInstruction w) ↔
    w.toNat % 0x100 ∉ [0x9E, 0xA1] := by
  rw [← fieldNN_toNat]
  unfold decodeClassE
  split
  case h_3 => simp_all [← BitVec.toNat_inj]
  all_goals simp [*]

theorem decodeClassF_error_iff (w : Word) : decodeClassF w = .error (.unknownInstruction w) ↔
    w.toNat % 0x100 ∉ [0x07, 0x0A, 0x15, 0x18, 0x1E, 0x29, 0x33, 0x55, 0x65] := by
  rw [← fieldNN_toNat]
  unfold decodeClassF
  split
  case h_10 => simp_all [← BitVec.toNat_inj]
  all_goals simp [*]

/-- Settles O41: the classes that are decoded further reject by their sub-key, the others never. -/
theorem unknownWordsAreExactly : Obligations.UnknownWordsAreExactly := by
  intro w
  have hw : w.toNat < 0x1000 ↔ w.toNat / 0x1000 = 0 := by omega
  rw [hw, ← fieldClass_toNat]
  unfold decodeWord
  split
  case h_1 hc => simp [hc, decodeClass0_error_iff]
  case h_9 hc => simp [hc, decodeClass8_error_iff]
  case h_15 hc => simp [hc, decodeClassE_error_iff]
  case h_16 =>
    have hc : fieldClass w = 0xF := eq_0xF_of_forall_ne fun k hk => by interval_cases k <;> assumption
    simp [hc, decodeClassF_error_iff]
  all_goals simp [*]

/-- Settles O42, each word by the decoder's arms (R62, R100). -/
theorem sampleWordsDecode : Obligations.SampleWordsDecode := by
  unfold Obligations.SampleWordsDecode
  decide

end Sys2Proof
end

section
/-! Frames (spec/10_state.md R21 to R31): how they compose, what each single write leaves unchanged, and from these what
each instruction writes. -/

namespace Sys2Proof

open Sys2Proof.Machine

/-! ### Composing frames -/

theorem Elem.same_refl (e : Elem) (s : State) : e.same s s := by
  cases e with
  | environment => exact ⟨rfl, rfl, rfl, rfl⟩
  | _ => rfl

theorem Elem.same_trans {e : Elem} {s t u : State} (h : e.same s t) (h' : e.same t u) : e.same s u := by
  cases e with
  | environment =>
    obtain ⟨h1, h2, h3, h4⟩ := h
    obtain ⟨g1, g2, g3, g4⟩ := h'
    exact ⟨g1.trans h1, g2.trans h2, g3.trans h3, g4.trans h4⟩
  | _ => exact Eq.trans h' h

theorem Frame.refl (xs : List Elem) (s : State) : Frame xs s s := fun e _ => e.same_refl s

theorem Frame.mono {xs ys : List Elem} {s t : State} (h : Frame xs s t) (hsub : xs ⊆ ys) : Frame ys s t :=
  fun e he => h e fun hx => he (hsub hx)

/-- Two steps in a row change what either changes. -/
theorem Frame.trans {xs ys : List Elem} {s t u : State} (h : Frame xs s t) (h' : Frame ys t u) :
    Frame (xs ++ ys) s u :=
  fun e he => Elem.same_trans (h e fun hx => he (List.mem_append_left _ hx))
    (h' e fun hy => he (List.mem_append_right _ hy))

/-- A step that took no error wrote nothing of what `raise` writes. -/
theorem Frame.drop_raised {xs : List Elem} {s t : State} (h : Frame (xs ++ raised) s t) (hf : t.fault = s.fault)
    (hg : t.stepGate = s.stepGate) : Frame xs s t := by
  intro e he
  cases e with
  | fault => exact hf
  | stepGate => exact hg
  | _ => exact h _ fun hx => he ((List.mem_append.mp hx).resolve_right (by simp [raised]))

/-! ### Single writes -/

namespace Machine

theorem State.setStack_frame (s : State) (st : List Word) (n : Nat) :
    Frame [.stack, .sp] s (s.setStack st n) := by
  intro e he
  cases e with
  | stack | sp => simp at he
  | _ => simp [Elem.same]

/-- Only the depth is written when the entries stay (R121). -/
theorem State.setStack_depth_frame (s : State) (n : Nat) : Frame [.sp] s (s.setStack s.stack n) := by
  intro e he
  cases e with
  | sp => simp at he
  | _ => simp [Elem.same]

theorem State.setKeyBlocked_frame (s : State) (b : Bool) : Frame [.keyBlocked] s (s.setKeyBlocked b) := by
  intro e he
  cases e with
  | keyBlocked => simp at he
  | _ => simp [Elem.same]

theorem State.raise_frame (s : State) (k : ErrorKind) : Frame raised s (s.raise k) := by
  intro e he
  cases e with
  | fault | stepGate => simp [raised] at he
  | _ => simp [Elem.same]

theorem State.endPoll_frame (s : State) : Frame [.environment] s s.endPoll := by
  intro e he
  cases e with
  | environment => simp at he
  | _ => simp [Elem.same]

theorem State.endLoad_frame (s : State) : Frame [.environment] s s.endLoad := by
  intro e he
  cases e with
  | environment => simp at he
  | _ => simp [Elem.same]

theorem State.admitInstr_frame (s : State) : Frame [.tInstr, .stepGate] s s.admitInstr := by
  intro e he
  cases e with
  | tInstr | stepGate => simp at he
  | _ => simp [Elem.same]

theorem State.setTFrame_frame (s : State) (n : Nat) : Frame [.tFrame] s (s.setTFrame n) := by
  intro e he
  cases e with
  | tFrame => simp at he
  | _ => simp [Elem.same]

/-- The second half of a Poll writes nothing but its stamp and what a tick writes. -/
theorem framePhase_frame (s : State) : Frame [.tFrame, .DT, .ST, .presents] s (framePhase s) := by
  rw [framePhase_eq]
  split
  · exact (s.setTFrame_frame _).trans (State.timerTick_frame _)
  · exact Frame.refl _ s

/-- Writing registers and the display, VF alone among the registers. -/
theorem drawRows_frame (xPos yPos : Nat) (is : List Nat) (s : State) :
    Frame ([.display, .reg VF] ++ raised) s (drawRows xPos yPos is s) := by
  intro e he
  obtain ⟨hkeep, -⟩ := drawRows_keeps xPos yPos is s
  cases e with
  | reg r => exact hkeep r fun hr => he (by simp [hr])
  | display | fault | stepGate => simp [raised] at he
  | _ => obtain ⟨v, d, h | h⟩ := drawRows_eq xPos yPos is s <;> rw [h] <;> simp [Elem.same] <;> rfl

/-! ### The instructions that branch -/

/-- The two ends of `00EE` (R121). -/
theorem exec00EE_cases {s t : State} (h : exec .op00EE s = .next t) :
    (0 < s.sp ∧ t = (s.setStack s.stack (s.sp - 1)).setPc (s.stack.getD (s.sp - 1) 0)) ∨
    (s.sp = 0 ∧ t = s.raise .stackUnderflow) := by
  rw [exec, exec00EE_eq] at h
  split at h <;> cases h
  · exact .inl ⟨‹_›, rfl⟩
  · exact .inr ⟨by omega, rfl⟩

/-- The two ends of `2NNN` (R123). -/
theorem exec2NNN_cases {nnn : Imm12} {s t : State} (h : exec (.op2NNN nnn) s = .next t) :
    (s.sp < s.params.stackCap ∧ t = (s.setStack (s.stack.set s.sp s.pc) (s.sp + 1)).setPc (zext12 nnn)) ∨
    (s.params.stackCap ≤ s.sp ∧ t = s.raise .stackOverflow) := by
  rw [exec, exec2NNN_eq] at h
  split at h <;> cases h
  · exact .inl ⟨‹_›, rfl⟩
  · exact .inr ⟨by omega, rfl⟩

/-- `FX0A` in Idle (R203). -/
theorem execFX0A_idle {s : State} (x : Reg) (h : s.keyBlocked = false) :
    exec (.opFX0A x) s = .next (s.setKeyBlocked true).rewindPc := by
  simp [exec, execFX0A, h]

/-- `FX0A` in the wait with a key reported (R203). -/
theorem execFX0A_resume {s : State} (x : Reg) (h : s.keyBlocked = true) (hv : s.inputs.keyValid = true) :
    exec (.opFX0A x) s = .next ((s.setReg x (s.inputs.keyCode.setWidth 8)).setKeyBlocked false) := by
  simp [exec, execFX0A, h, hv]

/-- `FX0A` in the wait with no key reported (R203). -/
theorem execFX0A_hold {s : State} (x : Reg) (h : s.keyBlocked = true) (hv : s.inputs.keyValid = false) :
    exec (.opFX0A x) s = .next s.rewindPc := by
  simp [exec, execFX0A, h, hv]

/-- The three ends of `FX0A` (R203). -/
theorem execFX0A_cases {x : Reg} {s t : State} (h : exec (.opFX0A x) s = .next t) :
    (s.keyBlocked = false ∧ t = (s.setKeyBlocked true).rewindPc) ∨
    (s.keyBlocked = true ∧ s.inputs.keyValid = true ∧
      t = (s.setReg x (s.inputs.keyCode.setWidth 8)).setKeyBlocked false) ∨
    (s.keyBlocked = true ∧ s.inputs.keyValid = false ∧ t = s.rewindPc) := by
  cases hk : s.keyBlocked
  case false => exact .inl ⟨rfl, Host.Outcome.next.inj (h.symm.trans (execFX0A_idle x hk))⟩
  case true =>
    cases hv : s.inputs.keyValid
    case true => exact .inr (.inl ⟨rfl, rfl, Host.Outcome.next.inj (h.symm.trans (execFX0A_resume x hk hv))⟩)
    case false => exact .inr (.inr ⟨rfl, rfl, Host.Outcome.next.inj (h.symm.trans (execFX0A_hold x hk hv))⟩)

/-! ### What each instruction writes -/

/-- The loads of `FX65` name the registers 0 to X. -/
theorem State.loadPlan_regs (s : State) (x : Reg) : ∀ d ∈ s.loadPlan x, Elem.reg d.2 ∈ (regsTo x).map Elem.reg := by
  intro d hd
  obtain ⟨j, hj, rfl⟩ := (s.mem_loadPlan x d).mp hd
  exact List.mem_map_of_mem ((mem_regsTo x j).mpr hj)

/-- The first statement of a shift writes `V[X]` at most. -/
theorem shiftSource_frame (x y : Reg) (s : State) : Frame [.reg x] s (shiftSource x y s) := by
  unfold shiftSource
  split
  · exact s.setReg_frame x _
  · exact Frame.refl _ s

theorem exec00EE_frame {s t : State} (h : exec .op00EE s = .next t) : Frame ([.pc, .sp] ++ raised) s t := by
  obtain ⟨-, rfl⟩ | ⟨-, rfl⟩ := exec00EE_cases h
  · exact ((s.setStack_depth_frame _).trans (State.setPc_frame _ _)).mono (by simp)
  · exact (s.raise_frame _).mono (by simp)

theorem exec2NNN_frame {nnn : Imm12} {s t : State} (h : exec (.op2NNN nnn) s = .next t) :
    Frame ([.pc, .sp, .stack] ++ raised) s t := by
  obtain ⟨-, rfl⟩ | ⟨-, rfl⟩ := exec2NNN_cases h
  · exact ((s.setStack_frame _ _).trans (State.setPc_frame _ _)).mono (by simp)
  · exact (s.raise_frame _).mono (List.subset_append_right _ _)

theorem execFX0A_frame {x : Reg} {s t : State} (h : exec (.opFX0A x) s = .next t) :
    Frame [.reg x, .pc, .keyBlocked] s t := by
  obtain ⟨-, rfl⟩ | ⟨-, -, rfl⟩ | ⟨-, -, rfl⟩ := execFX0A_cases h
  · exact ((s.setKeyBlocked_frame true).trans (State.setPc_frame _ _)).mono (by simp)
  · exact ((s.setReg_frame x _).trans (State.setKeyBlocked_frame _ _)).mono (by simp)
  · exact (s.setPc_frame _).mono (by simp)

/-- Writing VF and then `V[X]`, from a state that differs in `V[X]` at most. -/
theorem setFlag_setReg_frame {s s1 : State} {x : Reg} (h : Frame [.reg x] s s1) (a b : Byte) :
    Frame [.reg x, .reg VF] s ((s1.setReg VF a).setReg x b) :=
  ((h.trans (s1.setReg_frame VF a)).trans (State.setReg_frame _ x b)).mono (by simp)

/-- Settles O30: each arm is a sequence of single writes, of stores or loads, or a drawing, and frames compose. -/
theorem instructionWritesOnlyItsElements : Obligations.InstructionWritesOnlyItsElements := by
  intro i s t h
  cases i
  case op00EE => exact exec00EE_frame h
  case op2NNN => exact exec2NNN_frame h
  case opFX0A => exact execFX0A_frame h
  all_goals cases h
  case op00E0 => exact s.setDisp_frame _
  case op1NNN | opBNNN => exact s.setPc_frame _
  case op3XNN | op4XNN | op5XY0 | op9XY0 | opEX9E | opEXA1 => exact s.skipIf_frame _
  case op6XNN | op7XNN | op8XY0 | op8XY1 | op8XY2 | op8XY3 | opCXNN | opFX07 => exact s.setReg_frame _ _
  case op8XY4 | op8XY5 | op8XY7 => exact setFlag_setReg_frame (Frame.refl _ s) _ _
  case op8XY6 x y | op8XYE x y => exact setFlag_setReg_frame (shiftSource_frame x y s) _ _
  case opANNN | opFX29 => exact s.setI_frame _
  case opFX1E => exact (s.setI_frame _).trans (State.setReg_frame _ VF _)
  case opDXYN =>
    exact ((s.setReg_frame VF 0).trans (drawRows_frame _ _ _ _)).mono (by simp [Instr.writes])
  case opFX15 => exact s.setDT_frame _
  case opFX18 => exact s.setST_frame _
  case opFX33 x => exact storeAll_frame _ s _ (s.bcdCells_at x)
  case opFX55 x => exact storeAll_frame _ s _ (s.dumpCells_at x)
  case opFX65 x => exact loadAll_frame _ s _ (s.loadPlan_regs x)

end Machine

end Sys2Proof
end

section
/-! Rules over every instruction (spec/10_state.md R22 to R28, R47, spec/20_memory.md R60, spec/60_exceptions.md R241):
who may have changed an element, who raises, and who reads an input. -/

namespace Sys2Proof.Machine

/-! ### Who may have changed an element -/

/-- An element that an instruction changed is one it writes. -/
theorem mem_writes_of_changed {i : Instr} {s t : State} {e : Elem} (h : exec i s = .next t) (hne : ¬ e.same s t) :
    e ∈ i.writes s :=
  by_contra fun he => hne (instructionWritesOnlyItsElements i s t h e he)

theorem drawRows_mem (xPos yPos : Nat) (is : List Nat) (s : State) : (drawRows xPos yPos is s).mem = s.mem := by
  obtain ⟨v, d, e | e⟩ := drawRows_eq xPos yPos is s <;> simp [e]

theorem loadAll_mem (l : List (Nat × Reg)) (s : State) : (loadAll l s).mem = s.mem := by
  obtain ⟨v, e | e⟩ := loadAll_cases l s <;> simp [e]

/-- The stored list of memory changes only by a storing instruction. -/
theorem exec_mem {i : Instr} {s t : State} (h : exec i s = .next t) :
    t.mem = s.mem ∨ ∃ x, i = .opFX33 x ∨ i = .opFX55 x := by
  cases i
  case opFX33 x => exact .inr ⟨x, .inl rfl⟩
  case opFX55 x => exact .inr ⟨x, .inr rfl⟩
  all_goals left
  case op00EE => obtain ⟨-, rfl⟩ | ⟨-, rfl⟩ := exec00EE_cases h <;> rfl
  case op2NNN => obtain ⟨-, rfl⟩ | ⟨-, rfl⟩ := exec2NNN_cases h <;> rfl
  case opFX0A => obtain ⟨-, rfl⟩ | ⟨-, -, rfl⟩ | ⟨-, -, rfl⟩ := execFX0A_cases h <;> rfl
  all_goals cases h
  case opDXYN => exact drawRows_mem _ _ _ _
  case opFX65 => exact loadAll_mem _ s
  case op8XY6 | op8XYE => simp only [shiftSource]; split <;> rfl
  case op3XNN | op4XNN | op5XY0 | op9XY0 | opEX9E | opEXA1 => rw [State.skipIf_eq]; rfl
  all_goals rfl

/-- Settles O31: VF is among the written elements only there. -/
theorem flagWrittenOnlyByNamedInstructions : Obligations.FlagWrittenOnlyByNamedInstructions := by
  intro i s t h hne
  have hw := mem_writes_of_changed (e := .reg VF) h hne
  cases i
  case opFX65 x =>
    have hx : VF ≤ x := by simpa [Instr.writes, raised, mem_regsTo] using hw
    simp [Fin.last_le_iff.mp hx]
  all_goals simp_all [Instr.writes, raised, bytesAtI]

/-- Settles O32: memory by the arms, every other element by the list of what an instruction writes. -/
theorem storageWrittenOnlyByItsInstructions : Obligations.StorageWrittenOnlyByItsInstructions := by
  intro i s t h
  have hw (e : Elem) : ¬ e.same s t → e ∈ i.writes s := mem_writes_of_changed h
  refine ⟨(exec_mem h).resolve_left, fun hne => have hm := hne.imp (hw .stack) (hw .sp); ?_,
    fun hne => have hm := hw .display hne; ?_, fun hne => have hm := hw .keyBlocked hne; ?_,
    fun hne => have hm := hw .DT hne; ?_, fun hne => have hm := hw .ST hne; ?_,
    fun hne => have hm := hw .index hne; ?_⟩
  all_goals cases i <;> simp [Instr.writes, raised, bytesAtI] at hm ⊢

/-! ### Errors (R241) -/

theorem exec00EE_fault {s t : State} (h : exec .op00EE s = .next t) :
    t.fault = s.fault ∨ t.fault = some .stackUnderflow := by
  obtain ⟨-, rfl⟩ | ⟨-, rfl⟩ := exec00EE_cases h <;> simp

theorem exec2NNN_fault {nnn : Imm12} {s t : State} (h : exec (.op2NNN nnn) s = .next t) :
    t.fault = s.fault ∨ t.fault = some .stackOverflow := by
  obtain ⟨-, rfl⟩ | ⟨-, rfl⟩ := exec2NNN_cases h <;> simp

theorem drawRows_latch (xPos yPos : Nat) (is : List Nat) (s : State) :
    (drawRows xPos yPos is s).fault = s.fault ∨ (drawRows xPos yPos is s).fault = some .memoryOutOfBounds := by
  obtain ⟨v, d, e | e⟩ := drawRows_eq xPos yPos is s <;> simp [e]

theorem storeAll_latch (l : List Host.Cell) (s : State) :
    (storeAll l s).fault = s.fault ∨ (storeAll l s).fault = some .memoryOutOfBounds := by
  obtain ⟨m, e | e⟩ := storeAll_cases l s <;> simp [e]

theorem loadAll_latch (l : List (Nat × Reg)) (s : State) :
    (loadAll l s).fault = s.fault ∨ (loadAll l s).fault = some .memoryOutOfBounds := by
  obtain ⟨v, e | e⟩ := loadAll_cases l s <;> simp [e]

/-- Settles O33: only six instructions may write the latch, each its own kind. -/
theorem onlyTheseInstructionsRaise : Obligations.OnlyTheseInstructionsRaise := by
  intro i s t h hs ht
  have hne : t.fault ≠ s.fault := fun e => ht (e.trans hs)
  have hm := mem_writes_of_changed (e := .fault) h hne
  cases i
  case op00EE => exact .inr (.inl ⟨(exec00EE_fault h).resolve_left hne, rfl⟩)
  case op2NNN nnn => exact .inl ⟨(exec2NNN_fault h).resolve_left hne, nnn, rfl⟩
  case opDXYN x y n =>
    cases h
    exact .inr (.inr ⟨(drawRows_latch _ _ _ _).resolve_left hne, .inl ⟨x, y, n, rfl⟩⟩)
  case opFX33 x =>
    cases h
    exact .inr (.inr ⟨(storeAll_latch _ _).resolve_left hne, .inr ⟨x, .inl rfl⟩⟩)
  case opFX55 x =>
    cases h
    exact .inr (.inr ⟨(storeAll_latch _ _).resolve_left hne, .inr ⟨x, .inr (.inl rfl)⟩⟩)
  case opFX65 x =>
    cases h
    exact .inr (.inr ⟨(loadAll_latch _ _).resolve_left hne, .inr ⟨x, .inr (.inr rfl)⟩⟩)
  all_goals simp [Instr.writes] at hm

/-! ### Inputs (R47) -/

theorem State.skipIf_setEvents (s : State) (c : Bool) (es : List Event) :
    (s.setEvents es).skipIf c = (s.skipIf c).setEvents es := by
  cases c <;> rfl

/-- An instruction that reads no input does the same whatever events are to come. -/
theorem exec_setEvents {i : Instr} (s : State) (es : List Event) (hr : ∀ x nn, i ≠ .opCXNN x nn)
    (hk : ∀ x, i ≠ .opEX9E x ∧ i ≠ .opEXA1 x ∧ i ≠ .opFX0A x) :
    exec i (s.setEvents es) = onNext (exec i s) fun t => t.setEvents es := by
  cases i
  case opCXNN => simp at hr
  case opEX9E | opEXA1 | opFX0A => simp at hk
  case op00EE =>
    by_cases hsp : 0 < s.sp <;> simp only [exec, exec00EE_eq, State.setEvents_sp, hsp, if_true, if_false] <;> rfl
  case op2NNN =>
    by_cases hsp : s.sp < s.params.stackCap <;>
      simp only [exec, exec2NNN_eq, State.setEvents_sp, State.setEvents_params, hsp, if_true, if_false] <;> rfl
  case opDXYN => exact congrArg Host.Outcome.next (drawRows_setEvents es _ _ _ (s.setReg VF 0))
  case opFX33 => exact congrArg Host.Outcome.next (storeAll_setEvents es _ s)
  case opFX55 => exact congrArg Host.Outcome.next (storeAll_setEvents es _ s)
  case opFX65 => exact congrArg Host.Outcome.next (loadAll_setEvents es _ s)
  case op8XY6 | op8XYE =>
    simp only [exec, exec8XY6, exec8XYE, shiftSource_setEvents]
    rfl
  case op3XNN | op4XNN | op5XY0 | op9XY0 => exact congrArg Host.Outcome.next (s.skipIf_setEvents _ es)
  all_goals rfl

/-- Settles O34: the four readers see the inputs they agree on, the others none. -/
theorem unreadInputsDoNotMatter : Obligations.UnreadInputsDoNotMatter := by
  intro i s a b es hrnd hdown hkey
  by_cases hreads : (∀ x nn, i ≠ .opCXNN x nn) ∧ ∀ x, i ≠ .opEX9E x ∧ i ≠ .opEXA1 x ∧ i ≠ .opFX0A x
  · obtain ⟨t, ht⟩ := exec_next i s
    refine ⟨t.setEvents (.poll a :: es), t.setEvents (.poll b :: es), ?_, ?_, rfl⟩
    all_goals rw [exec_setEvents s _ hreads.1 hreads.2, ht, onNext_next]
  · cases i
    case opCXNN x nn =>
      refine ⟨_, _, rfl, rfl, ?_⟩
      simp only [State.inputs_setEvents_poll, hrnd x nn rfl]
      rfl
    case opEX9E x =>
      refine ⟨_, _, rfl, rfl, ?_⟩
      simp only [State.skipIf_setEvents, State.keyIsDown, State.inputs_setEvents_poll, hdown x (.inl rfl)]
      rfl
    case opEXA1 x =>
      refine ⟨_, _, rfl, rfl, ?_⟩
      simp only [State.skipIf_setEvents, State.keyIsDown, State.inputs_setEvents_poll, hdown x (.inr rfl)]
      rfl
    case opFX0A x =>
      obtain ⟨hv, hc⟩ := hkey x rfl
      cases hk : s.keyBlocked
      case false => exact ⟨_, _, execFX0A_idle x hk, execFX0A_idle x hk, rfl⟩
      case true =>
        cases hb : b.keyValid
        case false => exact ⟨_, _, execFX0A_hold x hk (hv.trans hb), execFX0A_hold x hk hb, rfl⟩
        case true =>
          refine ⟨_, _, execFX0A_resume x hk (hv.trans hb), execFX0A_resume x hk hb, ?_⟩
          simp only [State.inputs_setEvents_poll, hc]
          rfl
    all_goals simp at hreads

end Sys2Proof.Machine
end

section
/-! Instructions that compute: calls and returns (spec/40_control_flow.md), the index and random loads (spec/
41_immediate_and_index.md), the ALU with its flags (spec/42_alu_register.md) and the keys (spec/44_key_input.md). -/

namespace Sys2Proof.Machine

/-! ### Bytes and words as numbers -/

theorem zext8_toNat (b : Byte) : (zext8 b).toNat = b.toNat := BitVec.toNat_setWidth_of_le (by decide)

/-- The sum of `BNNN` is below 65536, so it is not reduced (D4). -/
theorem zext12_add_zext8_toNat (nnn : Imm12) (b : Byte) : (zext12 nnn + zext8 b).toNat = nnn.toNat + b.toNat := by
  have hn := nnn.isLt
  have hb := b.isLt
  rw [BitVec.toNat_add, zext12_toNat, zext8_toNat]
  omega

theorem sub_toNat (a b : Byte) : (a - b).toNat = (a.toNat + 256 - b.toNat) % 256 := by
  have hb := b.isLt
  rw [BitVec.toNat_sub]
  omega

theorem flagByte_toNat (p : Prop) [Decidable p] : (flagByte (decide p)).toNat = if p then 1 else 0 := by
  unfold flagByte
  by_cases h : p <;> simp [h]

theorem carryFlag_toNat (a b : Byte) : (carryFlag a b).toNat = if 255 < a.toNat + b.toNat then 1 else 0 :=
  flagByte_toNat _

theorem noBorrowFlag_toNat (a b : Byte) : (noBorrowFlag a b).toNat = if b.toNat < a.toNat then 1 else 0 :=
  flagByte_toNat _

theorem shiftedOutFlag_toNat (a : Byte) : (shiftedOutFlag a).toNat = a.toNat % 2 :=
  (BitVec.toNat_and a 1).trans (Nat.and_two_pow_sub_one_eq_mod a.toNat 1)

theorem and_0x80_toNat (a : Byte) : (a &&& 0x80).toNat = a.toNat / 128 * 128 := by
  have ha := a.isLt
  rw [BitVec.toNat_and]
  refine (Nat.and_two_pow a.toNat 7).trans ?_
  rw [Nat.toNat_testBit]
  omega

theorem shiftRight_toNat (a : Byte) (k : Nat) : (a >>> k).toNat = a.toNat / 2 ^ k := by
  rw [BitVec.toNat_ushiftRight, Nat.shiftRight_eq_div_pow]

theorem shiftLeft_one_toNat (a : Byte) : (a <<< 1).toNat = 2 * a.toNat % 256 := by
  rw [BitVec.toNat_shiftLeft, Nat.shiftLeft_eq]
  omega

theorem highBitFlag_toNat (raw : Bool) (a : Byte) :
    (highBitFlag raw a).toNat = if raw then a.toNat / 128 * 128 else a.toNat / 128 := by
  cases raw
  · exact shiftRight_toNat a 7
  · exact and_0x80_toNat a

/-! ### Calls and returns (R121, R123, R124, R129) -/

theorem exec00EE_pop {s : State} (h : 0 < s.sp) : exec .op00EE s =
    .next ((s.setStack s.stack (s.sp - 1)).setPc (s.stack.getD (s.sp - 1) 0)) :=
  (exec00EE_eq s).trans (if_pos h)

theorem exec2NNN_push {s : State} (nnn : Imm12) (h : s.sp < s.params.stackCap) : exec (.op2NNN nnn) s =
    .next ((s.setStack (s.stack.set s.sp s.pc) (s.sp + 1)).setPc (zext12 nnn)) :=
  (exec2NNN_eq nnn s).trans (if_pos h)

/-- Settles O1: a pop writes `pc` and the depth, an empty stack takes the error. -/
theorem returnPopsOrUnderflows : Obligations.ReturnPopsOrUnderflows := by
  refine ⟨fun s h => ⟨_, exec00EE_pop h, rfl, rfl, ?_⟩, fun s h => ⟨s.raise .stackUnderflow, ?_, rfl, rfl,
    s.raise_frame _⟩⟩
  · exact ((s.setStack_depth_frame _).trans (State.setPc_frame _ _)).mono (by simp)
  · exact (exec00EE_eq s).trans (if_neg (by omega))

/-- Settles O3: a push writes one slot, a full stack takes the error. -/
theorem callPushesOrOverflows : Obligations.CallPushesOrOverflows := by
  refine ⟨fun s nnn hlen h => ⟨_, exec2NNN_push nnn h, List.getElem?_set_self (by omega),
    fun k hk => List.getElem?_set_ne (Ne.symm hk), rfl, zext12_toNat nnn, ?_⟩,
    fun s nnn h => ⟨s.raise .stackOverflow, ?_, rfl, rfl, s.raise_frame _⟩⟩
  · exact ((s.setStack_frame _ _).trans (State.setPc_frame _ _)).mono (by simp)
  · exact (exec2NNN_eq nnn s).trans (if_neg (by omega))

/-- Settles O4: a jump to the sum, which fits in `pc` (R124). -/
theorem jumpWithOffset : Obligations.JumpWithOffset := fun s nnn =>
  ⟨s.setPc (zext12 nnn + zext8 (s.reg 0)), rfl, zext12_add_zext8_toNat nnn _, s.setPc_frame _⟩

/-- Settles O6: the return pops the slot the call wrote. -/
theorem callThenReturnRestoresPc : Obligations.CallThenReturnRestoresPc := by
  intro s nnn hlen h
  obtain ⟨t, ht, hslot, -, hsp, -⟩ := callPushesOrOverflows.1 s nnn hlen h
  refine ⟨t, ht, fun u hu hd => ?_⟩
  have hd' : u.sp = s.sp + 1 := hd.trans hsp
  refine ⟨_, exec00EE_pop (by omega), ?_, ?_⟩
  · simp only [State.setPc_pc, hd', Nat.add_sub_cancel, List.getD, hu, hslot, Option.getD_some]
  · simp only [State.setPc_sp, State.setStack_sp, hd', Nat.add_sub_cancel]

/-! ### Random and index (R143, R144) -/

/-- Settles O9: a register write of the masked input (R143). -/
theorem randomIsMasked : Obligations.RandomIsMasked := fun s x nn =>
  ⟨s.setReg x (s.inputs.rnd &&& nn), rfl, fun b => by rw [s.reg_setReg_self, BitVec.getLsbD_and], s.setReg_frame x _⟩

theorem index_add_toNat (i : Word) (b : Byte) : (i + zext8 b).toNat = (i.toNat + b.toNat) % 65536 := by
  rw [BitVec.toNat_add, zext8_toNat]

/-- Settles O10: the flag compares the new `I` (D8), and X = 15 is read before the flag is written (D3). -/
theorem indexAddSetsOverflowFlag : Obligations.IndexAddSetsOverflowFlag := by
  intro s x
  refine ⟨_, rfl, index_add_toNat _ _, ?_, (s.setI_frame _).trans (State.setReg_frame _ VF _)⟩
  rw [State.reg_setReg_self, indexOverflowFlag, flagByte_toNat, State.setI_I, index_add_toNat]
  rfl

/-! ### Arithmetic with a flag (R165 to R171) -/

/-- Settles O12: the result is written after the carry (D3). -/
theorem addSetsCarry : Obligations.AddSetsCarry := by
  intro s x y
  refine ⟨_, rfl, ?_, fun hx => ?_, setFlag_setReg_frame (Frame.refl _ s) _ _⟩
  · rw [State.reg_setReg_self, BitVec.toNat_add]
  · rw [State.reg_setReg_of_ne _ _ (Ne.symm hx), State.reg_setReg_self, carryFlag_toNat]

/-- Settles O13: neither operand is the flag, so both are read as they were. -/
theorem subtractSetsNoBorrow : Obligations.SubtractSetsNoBorrow := by
  intro s x y hx hy
  refine ⟨⟨_, rfl, ?_, ?_, setFlag_setReg_frame (Frame.refl _ s) _ _⟩,
    ⟨_, rfl, ?_, ?_, setFlag_setReg_frame (Frame.refl _ s) _ _⟩⟩
  · rw [State.reg_setReg_self, State.reg_setReg_of_ne _ _ hx, State.reg_setReg_of_ne _ _ hy, sub_toNat]
  · rw [State.reg_setReg_of_ne _ _ (Ne.symm hx), State.reg_setReg_self, noBorrowFlag_toNat]
  · rw [State.reg_setReg_self, State.reg_setReg_of_ne _ _ hx, State.reg_setReg_of_ne _ _ hy, sub_toNat]
  · rw [State.reg_setReg_of_ne _ _ (Ne.symm hx), State.reg_setReg_self, noBorrowFlag_toNat]

/-- Writing VF and then VF again. -/
theorem setFlag_setFlag_frame (s : State) (a b : Byte) : Frame [.reg VF] s ((s.setReg VF a).setReg VF b) :=
  ((s.setReg_frame VF a).trans (State.setReg_frame _ VF b)).mono (by simp)

/-- Settles O15: the subtraction reads register 15 after the flag is written to it (D3). -/
theorem flagAliasTable : Obligations.FlagAliasTable := by
  intro s r hr
  refine ⟨⟨_, rfl, setFlag_setReg_frame (Frame.refl _ s) _ _, ?_, ?_⟩, ⟨_, rfl, setFlag_setFlag_frame s _ _, ?_⟩,
    ⟨_, rfl, setFlag_setFlag_frame s _ _, ?_⟩, ⟨_, rfl, setFlag_setReg_frame (Frame.refl _ s) _ _, ?_, ?_⟩,
    ⟨_, rfl, setFlag_setFlag_frame s _ _, ?_⟩, ⟨_, rfl, setFlag_setFlag_frame s _ _, ?_⟩⟩
  all_goals simp only [State.reg_setReg, hr, Ne.symm hr, if_true, if_false, sub_toNat, noBorrowFlag_toNat]
  all_goals omega

/-! ### Shifts (R167, R169) -/

theorem shiftSource_reg (x y : Reg) (s : State) :
    (shiftSource x y s).reg x = if s.params.shiftUsesVy then s.reg y else s.reg x := by
  unfold shiftSource
  split <;> simp

theorem shiftSource_params (x y : Reg) (s : State) : (shiftSource x y s).params = s.params := by
  unfold shiftSource
  split <;> rfl

/-- Settles O14: the operand is `V[X]` after the first statement of the rule, and VF is read again when X = 15 (D3). -/
theorem shiftsByOne : Obligations.ShiftsByOne := by
  intro s x y a ha
  rw [← shiftSource_reg] at ha
  subst ha
  refine ⟨⟨_, rfl, setFlag_setReg_frame (shiftSource_frame x y s) _ _, fun hx => ⟨?_, ?_⟩, fun hx => ?_⟩,
    ⟨_, rfl, setFlag_setReg_frame (shiftSource_frame x y s) _ _, fun hx => ⟨?_, ?_⟩, fun hx => ?_⟩⟩
  · rw [State.reg_setReg_self, State.reg_setReg_of_ne _ _ hx, shiftRight_toNat]
    rfl
  · rw [State.reg_setReg_of_ne _ _ (Ne.symm hx), State.reg_setReg_self, shiftedOutFlag_toNat]
  · subst hx
    rw [State.reg_setReg_self, State.reg_setReg_self, shiftRight_toNat, shiftedOutFlag_toNat]
    omega
  · rw [State.reg_setReg_self, State.reg_setReg_of_ne _ _ hx, shiftLeft_one_toNat]
  · rw [State.reg_setReg_of_ne _ _ (Ne.symm hx), State.reg_setReg_self, highBitFlag_toNat, shiftSource_params]
  · subst hx
    have hlt := ((shiftSource VF y s).reg VF).isLt
    rw [State.reg_setReg_self, State.reg_setReg_self, shiftLeft_one_toNat, highBitFlag_toNat, shiftSource_params]
    split <;> omega

/-! ### Keys (R201 to R203) -/

theorem State.keyIsDown_eq (s : State) (x : Reg) :
    s.keyIsDown x = s.inputs.keyDown.getLsbD ((s.reg x).toNat % 16) := by
  rw [State.keyIsDown, State.keyIndex, and_0x0F_toNat]

/-- Settles O20: each is a skip on the key's bit. -/
theorem keySkipsTestKeyDown : Obligations.KeySkipsTestKeyDown := by
  intro s x
  rw [← s.keyIsDown_eq]
  refine ⟨exec_of_eq_skipIf rfl Iff.rfl, ?_⟩
  simpa only [ite_not] using exec_of_eq_skipIf (i := .opEXA1 x) (p := ¬ s.keyIsDown x = true) rfl (by simp)

/-- Settles O21: the three forms of `FX0A`. -/
theorem keyWaitEntersHoldsAndResumes : Obligations.KeyWaitEntersHoldsAndResumes := by
  refine ⟨fun s x hk => ⟨_, execFX0A_idle x hk, rfl, BitVec.sub_add_cancel s.pc 2, ?_⟩,
    fun s x hk hv => ⟨_, execFX0A_resume x hk hv, ?_, rfl, ?_⟩,
    fun s x hk hv => ⟨_, execFX0A_hold x hk hv, BitVec.sub_add_cancel s.pc 2, s.setPc_frame _⟩⟩
  · exact (s.setKeyBlocked_frame true).trans (State.setPc_frame _ _)
  · rw [State.setKeyBlocked_reg, State.reg_setReg_self, BitVec.toNat_setWidth_of_le (by decide)]
  · exact (s.setReg_frame x _).trans (State.setKeyBlocked_frame _ _)

end Sys2Proof.Machine
end

section
/-! Drawing a sprite (spec/43_display.md R182 to R187): the pixels a sprite covers, what drawing its first rows does,
and the fault at a row that cannot be read. -/

namespace Sys2Proof.Machine

/-! ### The pixels a sprite covers -/

/-- The rows 0 to n - 1 of a sprite are on a pixel exactly where `spriteOn` says. -/
theorem rowsOn_range_iff (s : State) (x y : Reg) (n i j : Nat) :
    rowsOn s (s.spriteX x) (s.spriteY y) (List.range n) i j ↔ spriteOn s x y n i j = true := by
  simp only [rowsOn, spriteOn, List.mem_range, Bool.and_eq_true, decide_eq_true_eq]
  constructor
  · rintro ⟨hi, hj, k, hk, rfl, c, hc, rfl, hbit⟩
    refine ⟨⟨⟨by omega, by omega, hi⟩, by omega, by omega, hj⟩, ?_⟩
    simpa using hbit
  · rintro ⟨⟨⟨h1, h2, h3⟩, h4, h5, h6⟩, hbit⟩
    exact ⟨h3, h6, j - s.spriteY y, by omega, by omega, i - s.spriteX x, by omega, by omega, hbit⟩

/-- A sprite bit that is drawn is inside the display. -/
theorem lt_of_spriteOn {s : State} {x y : Reg} {n i j : Nat} (h : spriteOn s x y n i j = true) :
    i < s.params.dispW ∧ j < s.params.dispH := by
  obtain ⟨hi, hj, -⟩ := (rowsOn_range_iff s x y n i j).mpr h
  exact ⟨hi, hj⟩

/-! ### Drawing the first rows -/

/-- `DXYN` up to row n: VF reset, then the rows drawn from the positions taken before (D34). -/
def drawSprite (s : State) (x y : Reg) (n : Nat) : State :=
  drawRows (s.spriteX x) (s.spriteY y) (List.range n) (s.setReg VF 0)

/-- Drawing keeps the size of the grid. -/
theorem drawSprite_shape {s : State} (x y : Reg) (n : Nat) (hs : displayShape s) :
    displayShape (drawSprite s x y n) :=
  (drawRows_keeps _ _ _ _).2 hs

/-- Drawing writes VF, the display and, at an error, what `raise` writes. -/
theorem drawSprite_frame (s : State) (x y : Reg) (n : Nat) :
    Frame ([.display, .reg VF] ++ raised) s (drawSprite s x y n) :=
  ((s.setReg_frame VF 0).trans (drawRows_frame _ _ _ _)).mono (by simp)

section
variable {s : State} {x y : Reg} {n : Nat} (hs : displayShape s)
  (hread : ∀ k < n, s.spriteY y + k < s.params.dispH → s.effAddr k < memSize)
include hs hread

/-- Readable rows: no error is taken, exactly the pixels under a drawn bit are inverted, and VF is 1 if one of them was
on, else 0 (R182, R183, R185). -/
theorem drawSprite_spec : (∃ v d, drawSprite s x y n = { s with V := v, disp := d }) ∧
    (∀ i j, (drawSprite s x y n).pixel i j = (s.pixel i j != spriteOn s x y n i j)) ∧
    ((∃ i j, s.pixel i j = true ∧ spriteOn s x y n i j = true) → (drawSprite s x y n).reg VF = 1) ∧
    ((∀ i j, ¬ (s.pixel i j = true ∧ spriteOn s x y n i j = true)) → (drawSprite s x y n).reg VF = 0) := by
  have hon := rowsOn_range_iff s x y n
  obtain ⟨⟨v, d, heq⟩, -, -, hpix, hone, hzero⟩ := drawRows_spec (s.spriteX x) (s.spriteY y) (List.range n)
    (s.setReg VF 0) hs List.pairwise_lt_range (fun k hk => hread k (List.mem_range.mp hk))
  refine ⟨⟨v, d, heq⟩, fun i j => ?_, fun ⟨i, j, hp, hb⟩ => hone ⟨i, j, (hon i j).mpr hb, hp⟩, fun hno => ?_⟩
  · rw [Bool.eq_iff_iff, bne_iff_ne]
    exact (hpix i j).trans (not_congr ((iff_congr Iff.rfl (hon i j)).trans Bool.eq_iff_iff.symm))
  · rw [drawSprite, hzero fun ⟨i, j, hb, hp⟩ => hno i j ⟨hp, (hon i j).mp hb⟩, State.reg_setReg_self]

/-- Readable rows write VF and the display alone. -/
theorem drawSprite_frame_of_readable : Frame [.display, .reg VF] s (drawSprite s x y n) := by
  obtain ⟨⟨v, d, h⟩, -⟩ := drawSprite_spec (x := x) hs hread
  exact (drawSprite_frame s x y n).drop_raised (by rw [h]) (by rw [h])

end

/-! ### The obligations -/

/-- Settles O17: the readable rows of a sprite are all drawn (R182 to R185). -/
theorem drawTogglesSpritePixels : Obligations.DrawTogglesSpritePixels := by
  intro s x y n hs hread
  obtain ⟨-, hpix, hone, hzero⟩ := drawSprite_spec (x := x) hs hread
  exact ⟨drawSprite s x y n.toNat, rfl, hpix, drawSprite_shape x y _ hs, hone, hzero,
    drawSprite_frame_of_readable hs hread⟩

/-- The rows of a sprite around row k. -/
theorem exists_range_eq_append {k n : Nat} (h : k < n) : ∃ js, List.range n = List.range k ++ k :: js := by
  obtain ⟨m, rfl⟩ : ∃ m, n = k + (m + 1) := ⟨n - k - 1, by omega⟩
  exact ⟨_, by rw [List.range_add, List.range_succ_eq_map, List.map_cons]; rfl⟩

/-- At the first row that cannot be read the error is taken, with the rows before it drawn (R182, R243). -/
theorem execDXYN_fault {s : State} {x y : Reg} {n : Nibble} {k : Nat} (hk : k < n.toNat)
    (hvis : s.spriteY y + k < s.params.dispH) (hout : memSize ≤ s.effAddr k)
    (hread : ∀ j, j < k → s.effAddr j < memSize) :
    exec (.opDXYN x y n) s = .next ((drawSprite s x y k).raise .memoryOutOfBounds) := by
  obtain ⟨js, hjs⟩ := exists_range_eq_append hk
  have hrows : ∀ j ∈ List.range k, s.spriteY y + j < s.params.dispH ∧ s.effAddr j < memSize := by
    intro j hj
    have hj' : j < k := List.mem_range.mp hj
    exact ⟨by omega, hread j hj'⟩
  rw [exec, execDXYN, hjs]
  exact congrArg Host.Outcome.next (drawRows_fault _ _ _ js k (s.setReg VF 0) hrows hvis hout)

/-- Settles O18: the rows before row k are readable, and the error writes the latch and `stepGate` alone. -/
theorem drawFaultKeepsEarlierRows : Obligations.DrawFaultKeepsEarlierRows := by
  intro s x y n k hs hk hvis hout hread
  have hread' : ∀ j < k, s.spriteY y + j < s.params.dispH → s.effAddr j < memSize := fun j hj _ => hread j hj
  obtain ⟨-, hpix, hone, hzero⟩ := drawSprite_spec (x := x) hs hread'
  exact ⟨_, execDXYN_fault hk hvis hout hread, hpix, hone, hzero, rfl, rfl,
    (drawSprite_frame_of_readable hs hread').trans (State.raise_frame _ _)⟩

/-- Two grids of one size that show the same pixels are the same. -/
theorem disp_eq_of_pixel_eq {s t : State} (hs : displayShape s) (ht : displayShape t) (hp : t.params = s.params)
    (h : ∀ i j, t.pixel i j = s.pixel i j) : t.disp = s.disp := by
  obtain ⟨hs1, hs2⟩ := hs
  obtain ⟨ht1, ht2⟩ := ht
  rw [hp] at ht1 ht2
  refine List.ext_getElem (ht1.trans hs1.symm) fun j hj hj' => ?_
  have hr := ht2 _ (List.getElem_mem hj)
  have hr' := hs2 _ (List.getElem_mem hj')
  refine List.ext_getElem (hr.trans hr'.symm) fun i hi hi' => ?_
  simpa [State.pixel, List.getD, hj, hj', hi, hi'] using h i j

/-! ### Drawing twice (R187) -/

section
variable (s : State) (x y : Reg) (n : Nat)

theorem drawSprite_params : (drawSprite s x y n).params = s.params :=
  drawSprite_frame s x y n .params (by simp [raised])

theorem drawSprite_readByte (a : Nat) : (drawSprite s x y n).readByte a = s.readByte a :=
  drawSprite_frame s x y n (.byte a) (by simp [raised])

theorem drawSprite_effAddr (k : Nat) : (drawSprite s x y n).effAddr k = s.effAddr k :=
  congrArg (·.toNat + k) (drawSprite_frame s x y n .index (by simp [raised]))

theorem drawSprite_reg {r : Reg} (hr : r ≠ VF) : (drawSprite s x y n).reg r = s.reg r :=
  drawSprite_frame s x y n (.reg r) (by simp [raised, hr])

theorem drawSprite_spriteX (hx : x ≠ VF) : (drawSprite s x y n).spriteX x = s.spriteX x := by
  rw [State.spriteX, drawSprite_reg s x y n hx, drawSprite_params, State.spriteX]

theorem drawSprite_spriteY (hy : y ≠ VF) : (drawSprite s x y n).spriteY y = s.spriteY y := by
  rw [State.spriteY, drawSprite_reg s x y n hy, drawSprite_params, State.spriteY]

/-- With position registers other than VF a drawing leaves the same sprite at the same place. -/
theorem spriteOn_drawSprite (hx : x ≠ VF) (hy : y ≠ VF) (m i j : Nat) :
    spriteOn (drawSprite s x y n) x y m i j = spriteOn s x y m i j := by
  simp only [spriteOn, drawSprite_spriteX s x y n hx, drawSprite_spriteY s x y n hy, drawSprite_params,
    drawSprite_readByte, drawSprite_effAddr]

end

/-- Settles O19: the second drawing inverts the same pixels again, and one of them is on exactly if the first turned one
on (R187). -/
theorem drawTwiceRestoresDisplay : Obligations.DrawTwiceRestoresDisplay := by
  intro s x y n hs hread hx hy
  obtain ⟨-, hpix, -⟩ := drawSprite_spec (x := x) hs hread
  have hts := drawSprite_shape x y n.toNat hs
  have hon := spriteOn_drawSprite s x y n.toNat hx hy n.toNat
  have htread : spriteReadable (drawSprite s x y n.toNat) y n := by
    simpa only [spriteReadable, drawSprite_spriteY s x y _ hy, drawSprite_params, drawSprite_effAddr] using hread
  obtain ⟨-, hpix', hone, hzero⟩ := drawSprite_spec (x := x) hts htread
  refine ⟨drawSprite s x y n.toNat, drawSprite (drawSprite s x y n.toNat) x y n.toNat, rfl, rfl, ?_, ?_, ?_⟩
  · refine disp_eq_of_pixel_eq hs (drawSprite_shape x y _ hts) (by rw [drawSprite_params, drawSprite_params]) ?_
    intro i j
    rw [hpix', hon, hpix, Bool.bne_assoc, bne_self_eq_false, Bool.bne_false]
  · intro h1
    by_contra hno
    refine absurd (h1.symm.trans (hzero fun i j ⟨hp, hb⟩ => hno ⟨i, j, ?_⟩)) (by decide)
    rw [hon] at hb
    obtain ⟨hi, hj⟩ := lt_of_spriteOn hb
    exact ⟨hi, hj, by simpa [hpix, hb] using hp, hp⟩
  · rintro ⟨i, j, -, -, hoff, hp⟩
    exact hone ⟨i, j, hp, by simpa [hon, hpix, hoff] using hp⟩

end Sys2Proof.Machine
end

section
/-! Memory transfers (spec/45_timers_and_memory.md R223 to R226, spec/20_memory.md R74): what `FX33`, `FX55` and `FX65`
leave in memory and in the registers, in range and out of it, and that the next fetch sees it. -/

namespace Sys2Proof.Machine

/-! ### In range, nothing but the named elements changes -/

theorem storeAll_frame_in_range {l : List Host.Cell} {s : State} {xs : List Elem}
    (hat : ∀ d ∈ l, Elem.byte d.1 ∈ xs) (hin : ∀ d ∈ l, d.1 < memSize) : Frame xs s (storeAll l s) := by
  obtain ⟨m, hm⟩ := storeAll_in_range l s hin
  exact (storeAll_frame l s xs hat).drop_raised (by rw [hm]; rfl) (by rw [hm]; rfl)

theorem loadAll_frame_in_range {l : List (Nat × Reg)} {s : State} {xs : List Elem}
    (hat : ∀ d ∈ l, Elem.reg d.2 ∈ xs) (hin : ∀ d ∈ l, d.1 < memSize) : Frame xs s (loadAll l s) := by
  obtain ⟨v, hv⟩ := loadAll_in_range l s hin
  exact (loadAll_frame l s xs hat).drop_raised (by rw [hv]) (by rw [hv])

/-! ### Out of range, the error is taken -/

theorem storeAll_raises {l : List Host.Cell} {s : State} (hout : ∃ d ∈ l, memSize ≤ d.1) :
    (storeAll l s).fault = some .memoryOutOfBounds ∧ (storeAll l s).stepGate = false := by
  obtain ⟨m, hm⟩ := storeAll_out_of_range l s hout
  simp [hm]

theorem loadAll_raises {l : List (Nat × Reg)} {s : State} (hout : ∃ d ∈ l, memSize ≤ d.1) :
    (loadAll l s).fault = some .memoryOutOfBounds ∧ (loadAll l s).stepGate = false := by
  obtain ⟨v, hv⟩ := loadAll_out_of_range l s hout
  simp [hv]

/-! ### Addresses rise from `I` -/

theorem State.effAddr_le (s : State) {j k : Nat} (h : j ≤ k) : s.effAddr j ≤ s.effAddr k :=
  Nat.add_le_add_left h _

theorem State.effAddr_lt_of_le (s : State) {j k : Nat} (h : j ≤ k) (hk : s.effAddr k < memSize) :
    s.effAddr j < memSize := Nat.lt_of_le_of_lt (s.effAddr_le h) hk

/-! ### `FX33` (R223) -/

/-- The digit of weight 10^(2 - k) is stored at `I + k`. -/
theorem State.mem_bcdCells (s : State) (x : Reg) {k : Nat} (hk : k < 3) :
    (s.effAddr k, BitVec.ofNat 8 ((s.reg x).toNat / 10 ^ (2 - k) % 10)) ∈ s.bcdCells x := by
  have hv := (s.reg x).isLt
  rw [State.bcdCells_eq]
  interval_cases k
  · have : (s.reg x).toNat / 100 % 10 = (s.reg x).toNat / 100 := by omega
    simp [this]
  · simp
  · simp

theorem State.bcdCells_in_range {s : State} (x : Reg) (h : s.effAddr 2 < memSize) :
    ∀ d ∈ s.bcdCells x, d.1 < memSize := by
  intro d hd
  obtain ⟨k, hk, hd'⟩ := (mem_bytesAtI s 3 d.1).mp (s.bcdCells_at x d hd)
  exact hd' ▸ s.effAddr_lt_of_le (by omega) h

theorem bcd_readByte {s : State} (x : Reg) (hw : Memory.wf s.params s.mem) {k : Nat} (hk : k < 3)
    (hr : s.effAddr k < memSize) :
    ((storeAll (s.bcdCells x) s).readByte (s.effAddr k)).toNat = (s.reg x).toNat / 10 ^ (2 - k) % 10 := by
  rw [storeAll_readByte_of_mem _ s _ _ hw (s.bcdCells_pairwise x) (s.mem_bcdCells x hk) hr, BitVec.toNat_ofNat]
  omega

theorem bcd_readByte_outside {s : State} (x : Reg) {a : Nat} (ha : ∀ k, k < 3 → s.effAddr k ≠ a) :
    (storeAll (s.bcdCells x) s).readByte a = s.readByte a := by
  refine storeAll_readByte_of_not_mem _ s a fun d hd => ?_
  obtain ⟨k, hk, hd'⟩ := (mem_bytesAtI s 3 d.1).mp (s.bcdCells_at x d hd)
  exact hd' ▸ ha k hk

/-! ### `FX55` (R224) -/

theorem dump_readByte {s : State} {x j : Reg} (hw : Memory.wf s.params s.mem) (hj : j ≤ x)
    (hr : s.effAddr j.val < memSize) : (storeAll (s.dumpCells x) s).readByte (s.effAddr j.val) = s.reg j :=
  storeAll_readByte_of_mem _ s _ _ hw (s.dumpCells_pairwise x) ((s.mem_dumpCells x _).mpr ⟨j, hj, rfl⟩) hr

theorem dump_readByte_outside {s : State} {x : Reg} {a : Nat} (ha : ∀ j : Reg, j ≤ x → s.effAddr j.val ≠ a) :
    (storeAll (s.dumpCells x) s).readByte a = s.readByte a := by
  refine storeAll_readByte_of_not_mem _ s a fun d hd => ?_
  obtain ⟨j, hj, rfl⟩ := (s.mem_dumpCells x d).mp hd
  exact ha j hj

theorem State.dumpCells_in_range {s : State} {x : Reg} (h : s.effAddr x.val < memSize) :
    ∀ d ∈ s.dumpCells x, d.1 < memSize := by
  intro d hd
  obtain ⟨j, hj, rfl⟩ := (s.mem_dumpCells x d).mp hd
  exact s.effAddr_lt_of_le hj h

/-! ### `FX65` (R225) -/

theorem load_reg {s : State} {x j : Reg} (hj : j ≤ x) : (loadAll (s.loadPlan x) s).reg j =
    if s.effAddr j.val < memSize then s.readByte (s.effAddr j.val) else s.reg j := by
  have hm := (s.mem_loadPlan x _).mpr ⟨j, hj, rfl⟩
  split
  case isTrue hr => exact loadAll_reg_of_mem _ s _ j (s.loadPlan_pairwise x) hm hr
  case isFalse hr => exact loadAll_reg_of_out_of_range _ s _ j (s.loadPlan_pairwise x) hm (Nat.le_of_not_lt hr)

theorem State.loadPlan_in_range {s : State} {x : Reg} (h : s.effAddr x.val < memSize) :
    ∀ d ∈ s.loadPlan x, d.1 < memSize := by
  intro d hd
  obtain ⟨j, hj, rfl⟩ := (s.mem_loadPlan x d).mp hd
  exact s.effAddr_lt_of_le hj h

/-! ### The obligations in range -/

/-- Settles O24: the three digits, each at its address. -/
theorem bcdStoresDecimalDigits : Obligations.BcdStoresDecimalDigits := by
  intro s x hw hr
  have hd (k : Nat) (hk : k < 3) := bcd_readByte x hw hk (s.effAddr_lt_of_le (by omega) hr)
  refine ⟨storeAll (s.bcdCells x) s, rfl, ?_, ?_,
    storeAll_frame_in_range (s.bcdCells_at x) (s.bcdCells_in_range x hr)⟩
  · have hv := (s.reg x).isLt
    rw [hd 0 (by omega), hd 1 (by omega), hd 2 (by omega)]
    omega
  · intro k hk
    rw [hd k hk]
    exact Nat.mod_lt _ (by decide)

/-- Settles O25: each register is stored at its own address, and nothing is raised. -/
theorem dumpStoresRegisters : Obligations.DumpStoresRegisters := fun s x hw hr =>
  ⟨storeAll (s.dumpCells x) s, rfl, fun _ hj => dump_readByte hw hj (s.effAddr_lt_of_le hj hr),
    storeAll_frame_in_range (s.dumpCells_at x) (s.dumpCells_in_range hr)⟩

/-- Settles O26: each register is loaded from its own address, and nothing is raised. -/
theorem loadReadsRegisters : Obligations.LoadReadsRegisters := fun s x hr =>
  ⟨loadAll (s.loadPlan x) s, rfl, fun _ hj => (load_reg hj).trans (if_pos (s.effAddr_lt_of_le hj hr)),
    loadAll_frame_in_range (s.loadPlan_regs x) (s.loadPlan_in_range hr)⟩

/-! ### Out of range (R243) -/

/-- Settles O27: what is in range is written all the same, and the error adds what `raise` writes. -/
theorem transferFaultKeepsEarlierWrites : Obligations.TransferFaultKeepsEarlierWrites := by
  intro s x hw
  refine ⟨fun hout => ?_, fun hout => ?_, fun hout => ?_⟩
  · obtain ⟨hf, hg⟩ := storeAll_raises (s := s) ⟨_, s.mem_bcdCells x (k := 2) (by omega), hout⟩
    refine ⟨storeAll (s.bcdCells x) s, rfl, hf, hg, fun hr => ?_, fun hr => bcd_readByte x hw (by omega) hr,
      storeAll_frame _ s _ (s.bcdCells_at x)⟩
    have hv := (s.reg x).isLt
    rw [bcd_readByte x hw (by omega) hr]
    omega
  · obtain ⟨hf, hg⟩ := storeAll_raises (s := s) ⟨_, (s.mem_dumpCells x _).mpr ⟨x, le_refl x, rfl⟩, hout⟩
    exact ⟨storeAll (s.dumpCells x) s, rfl, hf, hg, fun _ hj hr => dump_readByte hw hj hr,
      storeAll_frame _ s _ (s.dumpCells_at x)⟩
  · obtain ⟨hf, hg⟩ := loadAll_raises (s := s) ⟨_, (s.mem_loadPlan x _).mpr ⟨x, le_refl x, rfl⟩, hout⟩
    exact ⟨loadAll (s.loadPlan x) s, rfl, hf, hg, fun _ hj => load_reg hj,
      loadAll_frame _ s _ (s.loadPlan_regs x)⟩

/-! ### A dump read back (R226) and fetched (R74) -/

/-- Settles O28: each register is loaded from the address it was stored at. -/
theorem dumpThenLoadRestoresRegisters : Obligations.DumpThenLoadRestoresRegisters := by
  intro s x hw hr
  obtain ⟨t, ht, hbytes, hframe⟩ := dumpStoresRegisters s x hw hr
  refine ⟨t, ht, fun u hI hu => ⟨loadAll (u.loadPlan x) u, rfl, fun j hj => ?_⟩⟩
  have hI' : t.I = s.I := hframe .index (by simp [bytesAtI])
  have haddr (k : Nat) : u.effAddr k = s.effAddr k := by simp only [State.effAddr, hI, hI']
  have haddr' (k : Nat) : t.effAddr k = s.effAddr k := by simp only [State.effAddr, hI']
  rw [load_reg hj, haddr, if_pos (s.effAddr_lt_of_le hj hr), ← haddr', hu j hj, haddr', hbytes j hj]

/-- After stores that are in range the fetch reads the bytes now at `pc` and `pc + 1`. -/
theorem fetch_after_stores {l : List Host.Cell} {s : State} (hin : ∀ d ∈ l, d.1 < memSize)
    (hpc : s.pc.toNat + 1 < memSize) : ∃ w, (storeAll l s).fetchWord = some w ∧ (storeAll l s).pc = s.pc ∧
      w.toNat / 256 = ((storeAll l s).readByte s.pc.toNat).toNat ∧
      w.toNat % 256 = ((storeAll l s).readByte (s.pc.toNat + 1)).toNat := by
  obtain ⟨m, hm⟩ := storeAll_in_range l s hin
  rw [hm]
  exact ⟨_, State.fetchWord_of_lt (s := s.setMem m) hpc, rfl, wordOfBytes_halves _ _⟩

/-- Settles O29: the fetch reads the bytes as the stores left them. -/
theorem storeIsSeenByNextFetch : Obligations.StoreIsSeenByNextFetch := by
  intro s x hw hpc
  refine ⟨fun hr => ?_, fun hr => ?_⟩
  · obtain ⟨w, hfetch, hpc', hhi, hlo⟩ := fetch_after_stores (s.dumpCells_in_range hr) hpc
    refine ⟨_, w, rfl, hpc', hfetch, fun j hj ha => ?_, fun j hj ha => ?_, fun ha => ?_, fun ha => ?_⟩
    · rw [hhi, ← ha, dump_readByte hw hj (s.effAddr_lt_of_le hj hr)]
    · rw [hlo, ← ha, dump_readByte hw hj (s.effAddr_lt_of_le hj hr)]
    · rw [hhi, dump_readByte_outside ha]
    · rw [hlo, dump_readByte_outside ha]
  · obtain ⟨w, hfetch, hpc', hhi, hlo⟩ := fetch_after_stores (s.bcdCells_in_range x hr) hpc
    refine ⟨_, w, rfl, hpc', hfetch, fun k hk ha => ?_, fun k hk ha => ?_, fun ha => ?_, fun ha => ?_⟩
    · rw [hhi, ← ha, bcd_readByte x hw hk (s.effAddr_lt_of_le (by omega) hr)]
    · rw [hlo, ← ha, bcd_readByte x hw hk (s.effAddr_lt_of_le (by omega) hr)]
    · rw [hhi, bcd_readByte_outside x ha]
    · rw [hlo, bcd_readByte_outside x ha]

end Sys2Proof.Machine
end

section
/-! The Poll (spec/60_exceptions.md R250 to R258) and the fetch (spec/20_memory.md R62, R64): what the second half of a
Poll and the instruction step leave unchanged, the ways a Poll ends, and the statements about one Poll. -/

namespace Sys2Proof.Machine

/-! ### What the halves of a Poll keep -/

section
variable (s : State)

@[simp] theorem framePhase_params : (framePhase s).params = s.params := by rw [framePhase_eq]; split <;> rfl
@[simp] theorem framePhase_mem : (framePhase s).mem = s.mem := by rw [framePhase_eq]; split <;> rfl
@[simp] theorem framePhase_fault : (framePhase s).fault = s.fault := by rw [framePhase_eq]; split <;> rfl
@[simp] theorem framePhase_tInstr : (framePhase s).tInstr = s.tInstr := by rw [framePhase_eq]; split <;> rfl
@[simp] theorem framePhase_events : (framePhase s).events = s.events := by rw [framePhase_eq]; split <;> rfl
@[simp] theorem framePhase_polls : (framePhase s).polls = s.polls := by rw [framePhase_eq]; split <;> rfl
@[simp] theorem framePhase_inputs : (framePhase s).inputs = s.inputs := by rw [framePhase_eq]; split <;> rfl

end

/-- The inputs of a Poll are read off the environment's part alone. -/
theorem State.inputs_congr {s t : State} (he : t.events = s.events) (hn : t.lastNow = s.lastNow)
    (hp : t.polls = s.polls) : t.inputs = s.inputs := by
  simp only [State.inputs, he, hn, hp]

/-- An instruction step writes none of the pacer's stamps, parameters, strobe or environment. -/
theorem instrStep_keeps {s t : State} (h : instrStep s = .next t) :
    t.params = s.params ∧ t.tInstr = s.tInstr ∧ t.tFrame = s.tFrame ∧ t.presents = s.presents ∧
    t.events = s.events ∧ t.polls = s.polls ∧ t.inputs = s.inputs := by
  obtain ⟨-, ⟨-, rfl⟩ | ⟨w, r, -, -, rfl⟩ | ⟨w, i, u, -, -, hu, rfl⟩⟩ := instrStep_cases h
  · exact ⟨rfl, rfl, rfl, rfl, rfl, rfl, rfl⟩
  · exact ⟨rfl, rfl, rfl, rfl, rfl, rfl, rfl⟩
  · obtain ⟨hp, ht, hf, hpr, he, hn, hpo, -⟩ := exec_keeps hu
    exact ⟨hp, ht, hf, hpr, he, hpo, State.inputs_congr he hn hpo⟩

/-- A Poll ends with the environment's part, after what keeps parameters, events and inputs. -/
theorem poll_eq_endPoll {s t : State} (h : poll s = .next t) : ∃ u : State, t = u.endPoll ∧ u.params = s.params ∧
    u.events = s.events ∧ u.polls = s.polls ∧ u.inputs = s.inputs := by
  obtain ⟨-, rfl⟩ | ⟨-, -, rfl⟩ | ⟨-, -, u, hu, rfl⟩ := poll_cases h
  · exact ⟨s, rfl, rfl, rfl, rfl, rfl⟩
  · exact ⟨framePhase s, rfl, by simp, by simp, by simp, by simp⟩
  · obtain ⟨hp, -, -, -, he, hpo, hi⟩ := instrStep_keeps hu
    exact ⟨framePhase u, rfl, by simp [hp], by simp [he], by simp [hpo], by simp [hi]⟩

/-! ### The ways an instruction step ends -/

section
variable {s : State} {w : Word}

theorem instrStep_decoded {i : Instr} (hw : s.waitIntact = true) (hf : s.fetchWord = some w)
    (hd : decodeWord w = .ok i) :
    instrStep s = onNext (exec i s.advancePc) fun t => t.setStepGate false := by
  simp only [instrStep, hw, hf, hd, if_true]

theorem instrStep_unknown {r : DecodeReject} (hw : s.waitIntact = true) (hf : s.fetchWord = some w)
    (hd : decodeWord w = .error r) : instrStep s = .next (s.advancePc.raise .unknownInstruction) := by
  simp only [instrStep, hw, hf, hd, if_true]

theorem instrStep_unfetched (hw : s.waitIntact = true) (hf : s.fetchWord = none) :
    instrStep s = .next (s.raise .memoryOutOfBounds) := by
  simp only [instrStep, hw, hf, if_true]

theorem instrStep_broken (hw : s.waitIntact = false) : instrStep s = .fault .keyWaitWithoutFX0A := by
  simp [instrStep, hw]

theorem State.waitIntact_of_idle (h : s.keyBlocked = false) : s.waitIntact = true := by simp [State.waitIntact, h]

end

/-- With a fault latched the second half of a Poll does nothing (R247). -/
theorem framePhase_of_fault {s : State} (h : s.fault ≠ none) : framePhase s = s := by
  rw [framePhase_eq, if_neg fun hf => h hf.1]

/-- A Poll whose instruction step takes an error does no tick (R247). -/
theorem poll_of_raise {s u : State} (hf : s.fault = none) (hg : s.instrGateOpen = true)
    (hu : instrStep s.admitInstr = .next u) (hu' : u.fault ≠ none) : poll s = .next u.endPoll := by
  rw [poll_open hf hg, hu, onNext_next, framePhase_of_fault hu']

/-! ### The obligations: the instruction step -/

/-- Settles O35: the fetch reads the byte at `pc` into the high half (R62). -/
theorem fetchIsBigEndian : Obligations.FetchIsBigEndian := fun _ =>
  ⟨fun h => ⟨_, State.fetchWord_of_lt (Nat.lt_succ_of_le h), wordOfBytes_toNat _ _⟩, fun h => State.fetchWord_of_ge h⟩

/-- Settles O43: the fetched word is the decoded bytes', and `exec` always answers. -/
theorem stepRunsDecodedInstruction : Obligations.StepRunsDecodedInstruction := by
  intro s i rest hp hpoll hf hg hwait hpc _ hdec
  have hd := decodeWord_of_decode hdec
  obtain ⟨t, ht⟩ := exec_next i s.admitInstr.advancePc
  refine ⟨t, ht, ?_⟩
  rw [step_poll hp hpoll, poll_open hf hg,
    instrStep_decoded (s := s.admitInstr) hwait (State.fetchWord_of_lt (s := s.admitInstr) hpc) hd, ht]
  rfl

/-- Settles O44: the error is taken with `pc` past the word, and it cancels the tick. -/
theorem unknownWordHalts : Obligations.UnknownWordHalts := by
  intro s w hp hpoll hf hk hg hfetch hdec
  have hstep := instrStep_unknown (s := s.admitInstr) (State.waitIntact_of_idle hk) hfetch hdec
  refine ⟨_, (step_poll hp hpoll).trans (poll_of_raise hf hg hstep (by simp)), rfl, rfl, rfl, rfl, ?_⟩
  exact (((s.admitInstr_frame.trans (State.setPc_frame _ _)).trans (State.raise_frame _ _)).trans
    (State.endPoll_frame _)).mono (by simp [raised])

/-- Settles O45: the error is taken before `pc` advances, and it cancels the tick. -/
theorem fetchOutOfRangeHalts : Obligations.FetchOutOfRangeHalts := by
  intro s hp hpoll hf hk hg hpc
  have hstep := instrStep_unfetched (s := s.admitInstr) (State.waitIntact_of_idle hk)
    (State.fetchWord_of_ge (s := s.admitInstr) hpc)
  refine ⟨_, (step_poll hp hpoll).trans (poll_of_raise hf hg hstep (by simp)), rfl, rfl, rfl, ?_⟩
  exact ((s.admitInstr_frame.trans (State.raise_frame _ _)).trans (State.endPoll_frame _)).mono (by simp [raised])

/-- Settles O46: raising writes the latch and `stepGate`; the output is the code of R240, kind by kind. -/
theorem raiseLatchesItsCode : Obligations.RaiseLatchesItsCode := fun s k =>
  ⟨s.raise_stepGate k, s.raise_frame k, by cases k <;> rfl⟩

/-- Settles O47: a halted Poll is the environment's part alone. -/
theorem haltedUnitStandsStill : Obligations.HaltedUnitStandsStill := fun s k hp hpoll hf =>
  ⟨s.endPoll, (step_poll hp hpoll).trans (poll_halted (by simp [hf])), s.endPoll_frame⟩

/-! ### The obligations: the pacer -/

theorem gateOpen_iff (p : Params) (rate stamp now : Nat) :
    gateOpen p rate stamp now = true ↔ stamp ≤ now ∧ p.clockHz ≤ (now - stamp) * rate := by
  simp [gateOpen]

/-- The step whose next event is a Poll is that Poll. -/
theorem poll_of_step {s t : State} (hpoll : nextIsPoll s) (h : step s = .next t) : poll s = .next t :=
  (step_poll (step_cases h).1 hpoll).symm.trans h

/-- The second half of a Poll with no fault latched: the gate decides stamp and strobe together. -/
theorem framePhase_stamp {s : State} (hf : s.fault = none) :
    (framePhase s).tFrame = (if s.frameGateOpen then s.inputs.now else s.tFrame) ∧
    (framePhase s).presents = (if s.frameGateOpen then s.presents + 1 else s.presents) := by
  rw [framePhase_eq]
  cases s.frameGateOpen <;> simp [hf]

/-- A Poll of a unit that is not halted is an instruction step where its gate is open, then the second half of the Poll;
the frame gate sees what it would have seen before that step. -/
theorem poll_running {s t : State} (hf : s.fault = none) (h : poll s = .next t) : ∃ u : State,
    t = (framePhase u).endPoll ∧ u.tInstr = (if s.instrGateOpen then s.inputs.now else s.tInstr) ∧
    u.tFrame = s.tFrame ∧ u.presents = s.presents ∧ u.inputs = s.inputs ∧ u.frameGateOpen = s.frameGateOpen := by
  obtain ⟨hf', -⟩ | ⟨-, hg, rfl⟩ | ⟨-, hg, u, hu, rfl⟩ := poll_cases h
  · exact absurd hf hf'
  · exact ⟨s, rfl, by simp [hg], rfl, rfl, rfl, rfl⟩
  · obtain ⟨hp, ht, htf, hpr, -, -, hi⟩ := instrStep_keeps hu
    exact ⟨u, rfl, by simp [hg, ht], htf, hpr, hi, by rw [State.frameGateOpen, hp, htf, hi]; rfl⟩

/-- Settles O50: a fault of the instruction step leaves the second half of the Poll undone, else its gate decides. -/
theorem gatesAdmitByTheirRates : Obligations.GatesAdmitByTheirRates := by
  intro s t hpoll hf h
  obtain ⟨u, rfl, hti, htf, hpr, hi, hg⟩ := poll_running hf (poll_of_step hpoll h)
  simp only [← gateOpen_iff, State.endPoll_fault, State.endPoll_tInstr, State.endPoll_tFrame, State.endPoll_presents,
    framePhase_fault, framePhase_tInstr]
  refine ⟨hti, fun hu => ?_, fun hu => ?_⟩
  · obtain ⟨hstamp, hstrobe⟩ := framePhase_stamp hu
    rw [hstamp, hstrobe, hg, hi, htf, hpr]
    exact ⟨rfl, rfl⟩
  · rw [framePhase_of_fault hu]
    exact ⟨htf, hpr⟩

/-- Settles O51: with the instruction gate closed the Poll is its second half (R253). -/
theorem pollWithoutInstructionStep : Obligations.PollWithoutInstructionStep := by
  refine ⟨fun s hp hpoll hf hg hfg => ?_, fun s hp hpoll hf hg hfg => ?_⟩
  all_goals rw [step_poll hp hpoll, poll_closed hf hg, framePhase_eq]
  · rw [if_neg (by simp [hfg])]
    exact ⟨_, rfl, s.endPoll_frame⟩
  · rw [if_pos ⟨hf, hfg⟩]
    exact ⟨_, rfl, rfl, countDown_toNat s.DT, countDown_toNat s.ST, rfl,
      (((s.setTFrame_frame _).trans (State.timerTick_frame _)).trans (State.endPoll_frame _))⟩

/-- Settles O52: the inputs are read off the head of the list, and a Poll ends by using it up. -/
theorem pollTakesTheInputsPresented : Obligations.PollTakesTheInputsPresented := by
  refine ⟨fun s a es h => by simp only [State.inputs, h], fun s h => by simp only [State.inputs, h]; rfl, ?_⟩
  intro s t hpoll h
  obtain ⟨u, rfl, -, he, hp, hi⟩ := poll_eq_endPoll (poll_of_step hpoll h)
  exact ⟨congrArg List.tail he, congrArg Inputs.now hi, congrArg (· + 1) hp, rfl⟩

end Sys2Proof.Machine
end

section
/-! Canonical memory (notes/assumptions/14.md), Reset and Load (spec/70_reset_and_hazards.md), and the stops of the
model. -/

namespace Sys2Proof.Machine

/-! ### Canonical memories -/

/-- In a list of rising addresses the listed cells are what is looked up. -/
theorem Memory.mem_iff_lookup (c : Host.Cell) : ∀ m : Memory, m.Pairwise (fun c d => c.1 < d.1) →
    (c ∈ m ↔ Memory.lookup c.1 m = some c.2)
  | [], _ => by simp [Memory.lookup]
  | (b, u) :: m, h => by
    obtain ⟨hb, hm⟩ := List.pairwise_cons.mp h
    rw [List.mem_cons, Memory.lookup, Memory.mem_iff_lookup c m hm]
    by_cases hc : b = c.1
    · have hnone : Memory.lookup c.1 m = none := Memory.lookup_eq_none_of_lt c.1 m (hc ▸ hb)
      simp [hc, hnone, Prod.ext_iff, eq_comm]
    · simp [hc, Prod.ext_iff, Ne.symm hc]

/-- A byte that is not the background's is listed. -/
theorem Memory.lookup_of_read {p : Params} {m : Memory} {a : Nat} (h : Memory.read p m a ≠ background p a) :
    Memory.lookup a m = some (Memory.read p m a) := by
  unfold Memory.read at h ⊢
  cases hl : Memory.lookup a m
  · simp [hl] at h
  · rfl

/-- A cell of a canonical memory is a cell of every canonical memory that reads the same. -/
theorem Memory.mem_of_read_eq {p : Params} {m m' : Memory} (hm : Memory.wf p m) (hm' : Memory.wf p m')
    (h : ∀ a, Memory.read p m a = Memory.read p m' a) {c : Host.Cell} (hc : c ∈ m) : c ∈ m' := by
  have hl := (Memory.mem_iff_lookup c m hm.1).mp hc
  have hr : Memory.read p m' c.1 = c.2 := by rw [← h, Memory.read, hl, Option.getD_some]
  rw [Memory.mem_iff_lookup c m' hm'.1, Memory.lookup_of_read (hr ▸ (hm.2 c hc).2), hr]

/-- Settles O36: the two lists have the same cells, in the one order their addresses allow. -/
theorem equalReadsAreEqualMemories : Obligations.EqualReadsAreEqualMemories := by
  intro p m m' hm hm' h
  have hsymm : ∀ a, Memory.read p m' a = Memory.read p m a := fun a => (h a).symm
  have : Std.Irrefl fun c d : Host.Cell => c.1 < d.1 := ⟨fun c => lt_irrefl c.1⟩
  have : Std.Antisymm fun c d : Host.Cell => c.1 < d.1 := ⟨fun _ _ hcd hdc => absurd hdc (lt_asymm hcd)⟩
  exact hm.1.eq_of_mem_iff hm'.1 fun c => ⟨Memory.mem_of_read_eq hm hm' h, Memory.mem_of_read_eq hm' hm hsymm⟩

theorem instrStep_wf {s t : State} (h : instrStep s = .next t) (hw : Memory.wf s.params s.mem) :
    Memory.wf t.params t.mem := by
  obtain ⟨-, ⟨-, rfl⟩ | ⟨w, r, -, -, rfl⟩ | ⟨w, i, u, -, -, hu, rfl⟩⟩ := instrStep_cases h
  · exact hw
  · exact hw
  · exact exec_wf (s := s.advancePc) (t := u) hu hw

theorem poll_wf {s t : State} (h : poll s = .next t) (hw : Memory.wf s.params s.mem) : Memory.wf t.params t.mem := by
  obtain ⟨-, rfl⟩ | ⟨-, -, rfl⟩ | ⟨-, -, u, hu, rfl⟩ := poll_cases h
  · exact hw
  · simpa using hw
  · simpa using instrStep_wf hu hw

/-- Settles O37: an instruction, a Load and a Reset each keep the form (R71, R293, R37). -/
theorem stepKeepsMemoryCanonical : Obligations.StepKeepsMemoryCanonical := by
  intro s t hw h
  obtain ⟨-, ⟨es, -, rfl⟩ | ⟨rom, es, -, -, ⟨hfit, rfl⟩ | ⟨-, rfl⟩⟩ | ⟨-, hp⟩⟩ := step_cases h
  · exact Memory.wf_nil _
  · exact writeBytes_wf _ rom _ _ hfit hw
  · exact hw
  · exact poll_wf hp hw

/-- Settles O57: a Poll keeps them up to its end, and no other event writes them. -/
theorem parametersNeverChange : Obligations.ParametersNeverChange := by
  intro s t h
  obtain ⟨-, ⟨es, -, rfl⟩ | ⟨rom, es, -, -, ⟨-, rfl⟩ | ⟨-, rfl⟩⟩ | ⟨-, hp⟩⟩ := step_cases h
  · rfl
  · rfl
  · rfl
  · obtain ⟨u, rfl, hu, -⟩ := poll_eq_endPoll hp
    exact hu

/-! ### Reset (R290) -/

/-- With nothing listed every address reads as its reset byte (R37). -/
theorem State.readByte_of_mem_nil {s : State} (h : s.mem = []) (a : Nat) : s.readByte a = background s.params a := by
  simp [State.readByte, h, Memory.read, Memory.lookup]

theorem background_font {p : Params} {k : Nat} (hk : k < 80) :
    background p (p.fontBase + k) = p.fontData.getD k 0 := by
  rw [background, if_pos (by omega), Nat.add_sub_cancel_left]

theorem background_outside {p : Params} {a : Nat} (ha : a < p.fontBase ∨ p.fontBase + 80 ≤ a) : background p a = 0 :=
  if_neg (by omega)

/-- `PROG_START` fits in `pc` (R9). -/
theorem progStart_toNat {p : Params} (h : p.progStart ≤ 4095) : (BitVec.ofNat 16 p.progStart).toNat = p.progStart := by
  rw [BitVec.toNat_ofNat]
  omega

theorem State.reg_of_replicate {s : State} (h : s.V = Vector.replicate 16 0) (r : Reg) : s.reg r = 0 := by
  simp [State.reg, h]

/-- Settles O53: nothing is listed, so memory reads as Reset seeds it, and the grid is blank. -/
theorem resetClearsTheUnit : Obligations.ResetClearsTheUnit := by
  intro s es hp he
  have ⟨_, hstart, _⟩ := hp
  refine ⟨_, step_reset hp he, rfl, fun k hk => ?_, fun a ha => ?_, State.reg_of_replicate rfl, rfl,
    progStart_toNat hstart, rfl, rfl, rfl, rfl, State.pixel_eq_false_of_blank rfl, displayShape_of_blank rfl, rfl, rfl, rfl, rfl, rfl⟩
  · exact (State.readByte_of_mem_nil rfl _).trans (background_font hk)
  · exact (State.readByte_of_mem_nil rfl _).trans (background_outside ha)

/-! ### Load (R293) -/

theorem step_load_fits {s : State} {rom : List Byte} {es : List Event} (hp : s.params.wf) (ho : s.loadOpen = true)
    (he : s.events = .load rom :: es) (hfit : romFits s.params rom) :
    step s = .next (s.setMem (writeBytes s.params s.params.progStart rom s.mem)).endLoad := by
  rw [step_load hp he, loadEvent, if_pos ho, if_pos hfit]

theorem step_load_too_large {s : State} {rom : List Byte} {es : List Event} (hp : s.params.wf)
    (ho : s.loadOpen = true) (he : s.events = .load rom :: es) (hfit : ¬ romFits s.params rom) :
    step s = .next (s.raise .romTooLarge).endLoad := by
  rw [step_load hp he, loadEvent, if_pos ho, if_neg hfit]

theorem step_load_late {s : State} {rom : List Byte} {es : List Event} (hp : s.params.wf) (ho : s.loadOpen = false)
    (he : s.events = .load rom :: es) : step s = .refused .loadNotLegal := by
  simp [step_load hp he, loadEvent, ho]

/-- Replacing memory by one that reads alike outside some bytes changes those bytes alone. -/
theorem State.setMem_frame {s : State} {m : Memory} {xs : List Elem}
    (h : ∀ a, Elem.byte a ∉ xs → (s.setMem m).readByte a = s.readByte a) : Frame xs s (s.setMem m) := by
  intro e he
  cases e with
  | byte a => exact h a he
  | _ => simp [Elem.same]

/-- The copied bytes are the only ones changed. -/
theorem load_frame (s : State) (rom : List Byte) :
    Frame ((List.range rom.length).map fun k => Elem.byte (s.params.progStart + k)) s
      (s.setMem (writeBytes s.params s.params.progStart rom s.mem)) := by
  refine State.setMem_frame fun a ha => writeBytes_read_of_outside s.params rom _ s.mem a ?_
  by_contra hin
  exact ha (List.mem_map.mpr ⟨a - s.params.progStart, List.mem_range.mpr (by omega), by congr 1; omega⟩)

/-- Settles O54: the copied bytes read back, and a ROM that does not fit takes the error alone. -/
theorem loadCopiesOrRejects : Obligations.LoadCopiesOrRejects := by
  intro s rom es hp hw ho he
  refine ⟨fun hfit => ?_, fun hfit => ?_⟩
  · exact ⟨_, step_load_fits hp ho he hfit, fun k hk => writeBytes_read_of_inside s.params rom _ s.mem k hw.1 hk, rfl,
      (load_frame s rom).trans (State.endLoad_frame _)⟩
  · exact ⟨_, step_load_too_large hp ho he (Nat.not_le.mpr hfit), rfl, rfl, rfl,
      (s.raise_frame _).trans (State.endLoad_frame _)⟩

/-! ### The stops (U19, U21, U22) -/

/-- Settles O55: the checks of the event, of the Load and of the instruction step. -/
theorem stopsAreTheSpecsRefusals : Obligations.StopsAreTheSpecsRefusals := by
  refine ⟨fun s hp => if_neg hp, fun s rom es hp ho he => step_load_late hp ho he,
    fun s hp hpoll hf hg hk hw => ?_⟩
  have hbroken : s.admitInstr.waitIntact = false := by simp [State.waitIntact, hk, hw]
  rw [step_poll hp hpoll, poll_open hf hg, instrStep_broken hbroken]
  rfl

/-- A Poll answers when no key wait is broken. -/
theorem poll_next {s : State} (hw : s.waitIntact = true) : ∃ t, poll s = .next t := by
  by_cases hf : s.fault = none
  · cases hg : s.instrGateOpen
    · exact ⟨_, poll_closed hf hg⟩
    · obtain ⟨u, hu⟩ := instrStep_next s.admitInstr hw
      exact ⟨_, by rw [poll_open hf hg, hu, onNext_next]⟩
  · exact ⟨_, poll_halted hf⟩

/-- Settles O56: in a run a pending key wait is intact, so only a late Load is refused. -/
theorem runNeverStops : Obligations.RunNeverStops := by
  intro s hs
  have hw : s.waitIntact = true := by
    cases hk : s.keyBlocked
    · exact State.waitIntact_of_idle hk
    · simp [State.waitIntact, (hs.keyWait hk).1]
  obtain ⟨t, ht⟩ := poll_next hw
  match he : s.events with
  | [] => exact .inl ⟨t, (step_poll hs.config (.inl he)).trans ht⟩
  | .poll _ :: _ => exact .inl ⟨t, (step_poll hs.config (.inr ⟨_, _, he⟩)).trans ht⟩
  | .reset :: _ => exact .inl ⟨_, step_reset hs.config he⟩
  | .load rom :: es =>
    cases ho : s.loadOpen
    · exact .inr ⟨rom, es, rfl, rfl, step_load_late hs.config ho he⟩
    · by_cases hfit : romFits s.params rom
      · exact .inl ⟨_, step_load_fits hs.config ho he hfit⟩
      · exact .inl ⟨_, step_load_too_large hs.config ho he hfit⟩

/-- Settles O48: of a halted unit a Load is late, and a Poll is the environment's part alone. -/
theorem onlyResetClearsFault : Obligations.OnlyResetClearsFault := by
  intro s t hs hf h hreset
  obtain ⟨-, ⟨es, he, -⟩ | ⟨rom, es, -, ho, -⟩ | ⟨-, hp⟩⟩ := step_cases h
  · exact absurd he (hreset es)
  · exact absurd (hs.beforeRun ho).2 hf
  · cases (poll_halted hf).symm.trans hp
    exact ⟨rfl, s.endPoll_frame⟩

end Sys2Proof.Machine
end

section
/-! The invariant of a run (spec/10_state.md R35): it holds after reset and every step keeps it. The Poll is followed
through a part of the invariant that its intermediate states meet. -/

namespace Sys2Proof.Machine

/-! ### After reset -/

/-- The reset state meets the invariant whatever the environment's part is. -/
theorem inv_resetWith {p : Params} (hp : p.wf) (es : List Event) (now polls presents : Nat) :
    Inv { State.resetWith p with events := es, lastNow := now, polls := polls, presents := presents } where
  config := hp
  memory := Memory.wf_nil p
  stackSize := ⟨List.length_replicate, Nat.zero_le _⟩
  stackValues := fun w hw => by rw [List.eq_of_mem_replicate hw]; exact Nat.zero_le _
  display := displayShape_of_blank rfl
  gate := rfl
  keyWait := fun h => absurd h (by simp [State.resetWith])
  beforeRun := fun _ => ⟨rfl, rfl⟩
  pcReach := by
    have ⟨_, hstart, _⟩ := hp
    exact (progStart_toNat hstart).le.trans (by omega)

/-- Settles O58: the reset state with no event listed. -/
theorem invariantHoldsAtReset : Obligations.InvariantHoldsAtReset := fun _ hp => inv_resetWith hp [] 0 0 0

/-! ### What holds at every point of a step -/

/-- The clauses of the invariant that an instruction step keeps at every point of it: they speak of neither `pc`, nor
`stepGate`, nor the key wait. -/
structure Sound (s : State) : Prop where
  config : s.params.wf
  memory : Memory.wf s.params s.mem
  stackSize : s.stack.length = s.params.stackCap ∧ s.sp ≤ s.params.stackCap
  stackValues : ∀ w ∈ s.stack, w.toNat ≤ 0x1000
  display : displayShape s

/-- The invariant without its clause about what comes before the first Poll. -/
structure Running (s : State) : Prop where
  sound : Sound s
  gate : s.stepGate = false
  keyWait : s.keyBlocked = true → s.atKeyWait = true ∧ s.fault = none
  pcReach : s.pc.toNat ≤ 0x10FE

theorem running_of_inv {s : State} (h : Inv s) : Running s :=
  ⟨⟨h.config, h.memory, h.stackSize, h.stackValues, h.display⟩, h.gate, h.keyWait, h.pcReach⟩

theorem Running.inv {s : State} (h : Running s) (hb : s.loadOpen = true → s.keyBlocked = false ∧ s.fault = none) :
    Inv s :=
  ⟨h.sound.config, h.sound.memory, h.sound.stackSize, h.sound.stackValues, h.sound.display, h.gate, h.keyWait, hb,
    h.pcReach⟩

/-- The fetch, and with it the key wait, is read off `pc` and the bytes of memory alone. -/
theorem State.fetchWord_congr {s t : State} (hpc : t.pc = s.pc) (hb : ∀ a, t.readByte a = s.readByte a) :
    t.fetchWord = s.fetchWord := by
  simp only [State.fetchWord, hpc, hb]

theorem State.atKeyWait_congr {s t : State} (hpc : t.pc = s.pc) (hb : ∀ a, t.readByte a = s.readByte a) :
    t.atKeyWait = s.atKeyWait := by
  simp only [State.atKeyWait, State.fetchWord_congr hpc hb]

theorem Sound.congr {s t : State} (h : Sound s) (hp : t.params = s.params) (hm : t.mem = s.mem)
    (hst : t.stack = s.stack) (hsp : t.sp = s.sp) (hd : t.disp = s.disp) : Sound t := by
  obtain ⟨h1, h2, h3, h4, h5⟩ := h
  refine ⟨hp ▸ h1, by rw [hp, hm]; exact h2, by rw [hp, hst, hsp]; exact h3, hst ▸ h4, ?_⟩
  rw [displayShape, hp, hd]
  exact h5

/-- What writes timers, stamps, strobe and the environment's part alone keeps the invariant. -/
theorem Running.of_frame {s t : State} (h : Running s)
    (hf : Frame [.DT, .ST, .tInstr, .tFrame, .presents, .environment] s t) (hm : t.mem = s.mem) : Running t := by
  have hparams : t.params = s.params := hf .params (by simp)
  have hstack : t.stack = s.stack := hf .stack (by simp)
  have hsp : t.sp = s.sp := hf .sp (by simp)
  have hdisp : t.disp = s.disp := hf .display (by simp)
  have hkey : t.keyBlocked = s.keyBlocked := hf .keyBlocked (by simp)
  have hfault : t.fault = s.fault := hf .fault (by simp)
  have hpc : t.pc = s.pc := hf .pc (by simp)
  have hwait : t.atKeyWait = s.atKeyWait := State.atKeyWait_congr hpc fun a => hf (.byte a) (by simp)
  obtain ⟨hsound, hgate, hkeyWait, hpcReach⟩ := h
  exact ⟨hsound.congr hparams hm hstack hsp hdisp, (hf .stepGate (by simp)).trans hgate,
    by rw [hkey, hwait, hfault]; exact hkeyWait, hpc ▸ hpcReach⟩

/-! ### An instruction -/

theorem exec_display {i : Instr} {s t : State} (h : exec i s = .next t) (hs : displayShape s) : displayShape t := by
  by_cases hd : t.disp = s.disp
  · rw [displayShape, hd, (exec_keeps h).1]
    exact hs
  · obtain ⟨-, -, hdisp, -⟩ := storageWrittenOnlyByItsInstructions i s t h
    obtain rfl | ⟨x, y, n, rfl⟩ := hdisp hd <;> cases h
    · exact displayShape_of_blank rfl
    · exact (drawRows_keeps _ _ _ _).2 hs

/-- The stack keeps its size, and a pushed `pc` that is at most 0x1000 keeps the bound on the entries (R121). -/
theorem exec_stack {i : Instr} {s t : State} (h : exec i s = .next t)
    (hsize : s.stack.length = s.params.stackCap ∧ s.sp ≤ s.params.stackCap) (hval : ∀ w ∈ s.stack, w.toNat ≤ 0x1000)
    (hpc : s.pc.toNat ≤ 0x1000) :
    (t.stack.length = t.params.stackCap ∧ t.sp ≤ t.params.stackCap) ∧ ∀ w ∈ t.stack, w.toNat ≤ 0x1000 := by
  obtain ⟨hlen, hsp⟩ := hsize
  by_cases hst : t.stack ≠ s.stack ∨ t.sp ≠ s.sp
  · obtain ⟨-, hstack, -⟩ := storageWrittenOnlyByItsInstructions i s t h
    obtain rfl | ⟨nnn, rfl⟩ := hstack hst
    · obtain ⟨-, rfl⟩ | ⟨-, rfl⟩ := exec00EE_cases h
      · exact ⟨⟨hlen, (Nat.sub_le _ _).trans hsp⟩, hval⟩
      · exact ⟨⟨hlen, hsp⟩, hval⟩
    · obtain ⟨hroom, rfl⟩ | ⟨-, rfl⟩ := exec2NNN_cases h
      · refine ⟨⟨List.length_set.trans hlen, hroom⟩, fun w hw => ?_⟩
        obtain hw | rfl := List.mem_or_eq_of_mem_set hw
        · exact hval w hw
        · exact hpc
      · exact ⟨⟨hlen, hsp⟩, hval⟩
  · obtain ⟨h1, h2⟩ := not_or.mp hst
    rw [not_not.mp h1, not_not.mp h2, (exec_keeps h).1]
    exact ⟨⟨hlen, hsp⟩, hval⟩

theorem exec_sound {i : Instr} {s t : State} (h : exec i s = .next t) (hs : Sound s) (hpc : s.pc.toNat ≤ 0x1000) :
    Sound t := by
  obtain ⟨hsize, hval⟩ := exec_stack h hs.stackSize hs.stackValues hpc
  exact ⟨(exec_keeps h).1 ▸ hs.config, exec_wf h hs.memory, hsize, hval, exec_display h hs.display⟩

theorem getD_toNat_le {l : List Word} {n : Nat} (h : ∀ w ∈ l, w.toNat ≤ 0x1000) (k : Nat) (hn : 0x1000 ≤ n) :
    (l.getD k 0).toNat ≤ n := by
  by_cases hk : k < l.length
  · rw [List.getD_eq_getElem _ _ hk]
    exact (h _ (List.getElem_mem hk)).trans hn
  · rw [List.getD_eq_default _ _ (Nat.le_of_not_lt hk)]
    exact Nat.zero_le n

/-- From a `pc` that a fetch can have left, 2 to 0x1000, the largest `pc` an instruction reaches is that of `BNNN`
(R24). -/
theorem exec_pcReach {i : Instr} {s t : State} (h : exec i s = .next t) (hval : ∀ w ∈ s.stack, w.toNat ≤ 0x1000)
    (hlo : 2 ≤ s.pc.toNat) (hhi : s.pc.toNat ≤ 0x1000) : t.pc.toNat ≤ 0x10FE := by
  have hstay : s.pc.toNat ≤ 0x10FE := hhi.trans (by omega)
  have hskip (c : Bool) : (s.skipIf c).pc.toNat ≤ 0x10FE := by
    rw [State.skipIf_pc_toNat]
    cases c <;> simp <;> omega
  have hjump (nnn : Imm12) : (zext12 nnn).toNat ≤ 0x10FE := by
    have := nnn.isLt
    rw [zext12_toNat]
    omega
  have hrewind : (s.pc - 2).toNat ≤ 0x10FE := by
    rw [BitVec.toNat_sub_of_le (by simpa [BitVec.le_def] using hlo)]
    omega
  by_cases hw : Elem.pc ∈ i.writes s
  case neg =>
    have hpc : t.pc = s.pc := instructionWritesOnlyItsElements i s t h .pc hw
    rw [hpc]
    exact hstay
  cases i
  case op00EE =>
    obtain ⟨-, rfl⟩ | ⟨-, rfl⟩ := exec00EE_cases h
    · exact getD_toNat_le hval _ (by omega)
    · exact hstay
  case op2NNN nnn =>
    obtain ⟨-, rfl⟩ | ⟨-, rfl⟩ := exec2NNN_cases h
    · exact hjump nnn
    · exact hstay
  case opFX0A x =>
    obtain ⟨-, rfl⟩ | ⟨-, -, rfl⟩ | ⟨-, -, rfl⟩ := execFX0A_cases h
    · exact hrewind
    · exact hstay
    · exact hrewind
  case op1NNN nnn => cases h; exact hjump nnn
  case opBNNN nnn =>
    cases h
    have hn := nnn.isLt
    have hb := (s.reg 0).isLt
    rw [State.setPc_pc, zext12_add_zext8_toNat]
    omega
  case op3XNN | op4XNN | op5XY0 | op9XY0 | opEX9E | opEXA1 => cases h; exact hskip _
  all_goals simp [Instr.writes, raised, bytesAtI] at hw

/-! ### The key wait (R204) -/

theorem State.atKeyWait_of_decoded {s : State} {w : Word} {i : Instr} (hf : s.fetchWord = some w)
    (hd : decodeWord w = .ok i) : s.atKeyWait = isKeyWait i := by
  simp only [State.atKeyWait, hf, hd]

theorem exists_of_isKeyWait {i : Instr} (h : isKeyWait i = true) : ∃ x, i = .opFX0A x := by
  cases i <;> simp [isKeyWait] at h ⊢

/-- A pending wait that is intact has its `FX0A` at `pc`. -/
theorem State.exists_of_atKeyWait {s : State} (h : s.atKeyWait = true) :
    ∃ w x, s.fetchWord = some w ∧ decodeWord w = .ok (.opFX0A x) := by
  unfold State.atKeyWait at h
  split at h
  · cases h
  · split at h
    · rename_i w hf _ i hd
      obtain ⟨x, rfl⟩ := exists_of_isKeyWait h
      exact ⟨w, x, hf, hd⟩
    · cases h

/-- With no `FX0A` at `pc` an intact unit is in Idle. -/
theorem State.idle_of_waitIntact {s : State} (hw : s.waitIntact = true) (hat : s.atKeyWait = false) :
    s.keyBlocked = false := by
  simpa [State.waitIntact, hat] using hw

/-- An instruction other than `FX0A` runs only in Idle and stays there; `FX0A` waits on its own word. -/
theorem exec_keyWait {s t : State} {w : Word} {i : Instr} (hwait : s.waitIntact = true) (hfault : s.fault = none)
    (hf : s.fetchWord = some w) (hd : decodeWord w = .ok i) (h : exec i s.advancePc = .next t)
    (hk : t.keyBlocked = true) : t.atKeyWait = true ∧ t.fault = none := by
  have hat := State.atKeyWait_of_decoded hf hd
  cases hi : isKeyWait i
  case false =>
    have hidle := State.idle_of_waitIntact hwait (hat.trans hi)
    have hsame : ¬ t.keyBlocked ≠ s.keyBlocked := by
      intro hne
      obtain ⟨-, -, -, hkey, -⟩ := storageWrittenOnlyByItsInstructions i s.advancePc t h
      obtain ⟨x, rfl⟩ := hkey hne
      simp [isKeyWait] at hi
    rw [not_not.mp hsame, hidle] at hk
    cases hk
  case true =>
    obtain ⟨x, rfl⟩ := exists_of_isKeyWait hi
    have hback : s.advancePc.rewindPc.atKeyWait = true :=
      (State.atKeyWait_congr (t := s.advancePc.rewindPc) (BitVec.add_sub_cancel s.pc 2) fun _ => rfl).trans
        (hat.trans hi)
    obtain ⟨-, rfl⟩ | ⟨-, -, rfl⟩ | ⟨-, -, rfl⟩ := execFX0A_cases h
    · exact ⟨hback, hfault⟩
    · cases hk
    · exact ⟨hback, hfault⟩

/-! ### A Poll -/

/-- A word is fetched only below 0xFFF, so the fetch advance does not wrap (R64, R93). -/
theorem State.advancePc_of_fetched {s : State} {w : Word} (h : s.fetchWord = some w) :
    2 ≤ s.advancePc.pc.toNat ∧ s.advancePc.pc.toNat ≤ 0x1000 := by
  have hlt : s.pc.toNat + 1 < 4096 := by
    by_contra hge
    rw [State.fetchWord_of_ge (Nat.le_of_not_lt hge)] at h
    cases h
  have hpc : s.advancePc.pc.toNat = s.pc.toNat + 2 := by
    rw [State.advancePc_pc, BitVec.toNat_add]
    exact Nat.mod_eq_of_lt (by simp; omega)
  omega

/-- An instruction step of a unit that is not halted keeps the invariant, but for the clause about what comes before the
first Poll. -/
theorem instrStep_running {s t : State} (hs : Running s) (hf : s.fault = none) (h : instrStep s.admitInstr = .next t) :
    Running t := by
  have hsound : Sound s.admitInstr.advancePc := hs.sound.congr rfl rfl rfl rfl rfl
  obtain ⟨hwait, ⟨hfetch, rfl⟩ | ⟨w, r, hfetch, hd, rfl⟩ | ⟨w, i, u, hfetch, hd, hu, rfl⟩⟩ := instrStep_cases h
  · have hidle : s.keyBlocked = false := State.idle_of_waitIntact (s := s.admitInstr) hwait
      (by simp only [State.atKeyWait, hfetch])
    exact ⟨hsound.congr rfl rfl rfl rfl rfl, rfl, fun hk => absurd hk (by simp [hidle]), hs.pcReach⟩
  · have hidle : s.keyBlocked = false := State.idle_of_waitIntact (s := s.admitInstr) hwait
      (by simp only [State.atKeyWait, hfetch, hd])
    obtain ⟨-, hpc⟩ := State.advancePc_of_fetched hfetch
    exact ⟨hsound.congr rfl rfl rfl rfl rfl, rfl, fun hk => absurd hk (by simp [hidle]), hpc.trans (by omega)⟩
  · obtain ⟨hlo, hhi⟩ := State.advancePc_of_fetched hfetch
    exact ⟨(exec_sound hu hsound hhi).congr rfl rfl rfl rfl rfl, rfl, exec_keyWait (t := u) hwait hf hfetch hd hu,
      exec_pcReach (t := u) hu hsound.stackValues hlo hhi⟩

/-- The second half of a Poll and its end keep the invariant. -/
theorem Running.endPoll_framePhase {s : State} (h : Running s) : Inv (framePhase s).endPoll := by
  have hf := (framePhase_frame s).trans (State.endPoll_frame _)
  exact (h.of_frame (hf.mono (by simp)) (framePhase_mem s)).inv fun ho => absurd ho (by simp)

theorem poll_inv {s t : State} (hs : Inv s) (h : poll s = .next t) : Inv t := by
  obtain ⟨hf, rfl⟩ | ⟨-, -, rfl⟩ | ⟨hf, -, u, hu, rfl⟩ := poll_cases h
  · exact framePhase_of_fault hf ▸ (running_of_inv hs).endPoll_framePhase
  · exact (running_of_inv hs).endPoll_framePhase
  · exact (instrStep_running (running_of_inv hs) hf hu).endPoll_framePhase

/-! ### Reset and Load -/

theorem resetEvent_inv {s : State} (hp : s.params.wf) : Inv s.resetEvent := inv_resetWith hp _ _ _ _

/-- A Load is taken in Idle only, and what it copies stays inside memory (R293). -/
theorem load_inv {s : State} {rom : List Byte} (hs : Inv s) (ho : s.loadOpen = true) (hfit : romFits s.params rom) :
    Inv (s.setMem (writeBytes s.params s.params.progStart rom s.mem)).endLoad := by
  obtain ⟨hidle, -⟩ := hs.beforeRun ho
  obtain ⟨hsound, hgate, -, hpc⟩ := running_of_inv hs
  have hmem := writeBytes_wf s.params rom _ s.mem hfit hsound.memory
  exact Running.inv ⟨⟨hsound.config, hmem, hsound.stackSize, hsound.stackValues, hsound.display⟩, hgate,
    fun hk => absurd hk (by simp [hidle]), hpc⟩ fun hl => absurd hl (by simp)

theorem load_reject_inv {s : State} (hs : Inv s) (ho : s.loadOpen = true) : Inv (s.raise .romTooLarge).endLoad := by
  obtain ⟨hidle, -⟩ := hs.beforeRun ho
  obtain ⟨hsound, -, -, hpc⟩ := running_of_inv hs
  exact Running.inv ⟨hsound.congr rfl rfl rfl rfl rfl, rfl, fun hk => absurd hk (by simp [hidle]), hpc⟩
    fun hl => absurd hl (by simp)

/-! ### The obligations -/

/-- Settles O59: each event keeps the invariant. -/
theorem stepKeepsInvariant : Obligations.StepKeepsInvariant := by
  intro s t hs h
  obtain ⟨-, ⟨es, -, rfl⟩ | ⟨rom, es, -, ho, ⟨hfit, rfl⟩ | ⟨-, rfl⟩⟩ | ⟨-, hp⟩⟩ := step_cases h
  · exact resetEvent_inv hs.config
  · exact load_inv hs ho hfit
  · exact load_reject_inv hs ho
  · exact poll_inv hs hp

/-- An `FX0A` that waits on leaves the unit as it was but for the gate's stamp (R203, R205). -/
theorem hold_frame {s : State} (hg : s.stepGate = false) :
    Frame [.tInstr] s (s.admitInstr.advancePc.rewindPc.setStepGate false) := by
  intro e he
  cases e with
  | tInstr => simp at he
  | pc => exact BitVec.add_sub_cancel s.pc 2
  | stepGate => exact hg.symm
  | _ => simp [Elem.same]

/-- Settles O22: the step of such a Poll, where the gate is open, is an `FX0A` that waits on. -/
theorem keyWaitSuspendsExecution : Obligations.KeyWaitSuspendsExecution := by
  intro s t hs hk hpoll hv h
  obtain ⟨hat, hf⟩ := hs.keyWait hk
  have hp := poll_of_step hpoll h
  cases hg : s.instrGateOpen
  case false =>
    cases (poll_closed hf hg).symm.trans hp
    exact ((framePhase_frame s).trans (State.endPoll_frame _)).mono (by simp)
  case true =>
    obtain ⟨w, x, hfetch, hd⟩ := State.exists_of_atKeyWait hat
    have hwait : s.admitInstr.waitIntact = true := by simp [State.waitIntact, hat]
    rw [poll_open hf hg, instrStep_decoded hwait hfetch hd, execFX0A_hold (s := s.admitInstr.advancePc) x hk hv] at hp
    cases hp
    exact (((hold_frame hs.gate).trans (framePhase_frame _)).trans (State.endPoll_frame _)).mono (by simp)

end Sys2Proof.Machine
end
